-- ==== Sys2Proof/Word.lean ====
section
/-! DEFINITION. The word types of the block: data bytes, port addresses, window offsets and transaction keys
(00_scope.md R11, 30_encoding.md R70). -/

namespace Sys2Proof

/-- A data byte, a register cell or a register index: unsigned, 8 bits (R11, R72). -/
abbrev Byte := BitVec 8

/-- An I/O port address: unsigned, 16 bits (R37, R73). -/
abbrev Port := BitVec 16

/-- A legacy-window offset: 17 bits, so that none above 0x1FFFF can be written down (R73, R203). -/
abbrev Offset := BitVec 17

/-- A transaction key (R70). -/
abbrev Key := BitVec 40

end Sys2Proof
end

