-- ==== Sys2Proof/Config.lean ====
section
/-! DEFINITION. The implementation parameters of 00_scope.md R6 to R9 (a model "takes the parameter as an argument"), the
defaults the spec offers for them, and the one constant without a body: the revision byte. -/

namespace Sys2Proof

/-- The parameters of R6 (ports), R7 (thresholds and indices), R8 (bit positions) and R9 (sizes and identity). A bit position is
the bit's number in its byte; a 2-bit field is given by the number of its low bit, its high bit being the next one (DEDUCED from
the `hi:lo` form of R8 and R11, log 11). An OPEN parameter that may be unset is an `Option`: "a port or index whose parameter is OPEN
and unset does not exist" (R236). -/
structure Params where
  pSeqIndex : Port
  pSeqData : Port
  pDacCmd : Port
  pDacRst0 : Port
  pDacRst1 : Port
  pDacRst2 : Port
  pGcIndex : Port
  pGcData : Port
  crtcBaseMono : Port
  crtcBaseColor : Port
  offCrtcIndex : Port
  offCrtcData : Port
  offBankW : Port
  offBankR : Port
  pSeqAliasIndex : Option Port
  pSeqAliasData : Option Port
  seqStdMax : Byte
  seqUnlock : Byte
  seqPum1 : Byte
  seqMc2 : Byte
  seqMc1 : Byte
  seqPum2 : Byte
  crtcStdMax : Byte
  crModtest : Byte
  crSwprog : Byte
  crLinap : Byte
  crStarthi : Byte
  crOffext : Byte
  crPixdepth : Byte
  crMmio : Byte
  crFinal : Option Byte
  gcStdMax : Byte
  gcExta : Byte
  gcExtb : Byte
  gcMisc : Byte
  miscIoasBit : Fin 8
  miscCsLo : Fin 7
  mc2Cs2Bit : Fin 8
  mc2Cs3Bit : Fin 8
  mc2Div : Fin 7
  pdDepth : Fin 7
  pdSuppBit : Fin 8
  gcbSepBit : Fin 8
  gcbEnBit : Fin 8
  laActiveBit : Fin 8
  laSizeBit : Fin 8
  mmioBit : Fin 8
  pum1AltpostBit : Fin 8
  vramSize : Nat
  revisionId : Byte
  timingDivPlaceholder : Nat
deriving DecidableEq, Repr

/-- REVISION_ID, OPEN (R9, D9): no value is given, so the constant has no body and nothing can be proved of it (log 4). -/
opaque Config.revisionId : Byte

/-- The parameter set the model's reset state takes: the spec's defaults of R6 to R9 (PRESUMED, log 2: the spec marks them "from
general knowledge"); of the OPEN ones VRAM_SIZE is the source's worked example, the sequencer alias ports and CR_FINAL are unset
(DESIGN CHOICE, log 3) and REVISION_ID is the opaque constant (log 4). -/
def Params.default : Params where
  pSeqIndex := 0x3C4
  pSeqData := 0x3C5
  pDacCmd := 0x3C6
  pDacRst0 := 0x3C7
  pDacRst1 := 0x3C8
  pDacRst2 := 0x3C9
  pGcIndex := 0x3CE
  pGcData := 0x3CF
  crtcBaseMono := 0x3B0
  crtcBaseColor := 0x3D0
  offCrtcIndex := 4
  offCrtcData := 5
  offBankW := 8
  offBankR := 9
  pSeqAliasIndex := none
  pSeqAliasData := none
  seqStdMax := 0x04
  seqUnlock := 0x0B
  seqPum1 := 0x0C
  seqMc2 := 0x0D
  seqMc1 := 0x0E
  seqPum2 := 0x0F
  crtcStdMax := 0x18
  crModtest := 0x1E
  crSwprog := 0x1F
  crLinap := 0x21
  crStarthi := 0x27
  crOffext := 0x29
  crPixdepth := 0x38
  crMmio := 0x39
  crFinal := none
  gcStdMax := 0x08
  gcExta := 0x0E
  gcExtb := 0x0F
  gcMisc := 0x2F
  miscIoasBit := 0
  miscCsLo := 2
  mc2Cs2Bit := 0
  mc2Cs3Bit := 6
  mc2Div := 1
  pdDepth := 2
  pdSuppBit := 4
  gcbSepBit := 0
  gcbEnBit := 2
  laActiveBit := 5
  laSizeBit := 4
  mmioBit := 0
  pum1AltpostBit := 4
  vramSize := 0x200000
  revisionId := Config.revisionId
  timingDivPlaceholder := 1

end Sys2Proof
end

