-- ==== Sys2Proof/Syntax.lean ====
section
/-! DEFINITION. The operations of the block, one constructor per row of spec/opcode_table.json (30_encoding.md R76), and the names
of the reserved key forms of R77. -/

namespace Sys2Proof

/-- Which of the three DAC "reset" ports an access names (R6: P_DAC_RST0, P_DAC_RST1, P_DAC_RST2). -/
inductive DacReset where
  | rst0
  | rst1
  | rst2
deriving DecidableEq, Repr

/-- The operations of R76. `p` is a port, `i` the idx field of the key (the group's index register, R72), `v` the byte written,
`o` a legacy-window offset, `r` one of the DAC reset ports. A name ending in `R` is a read, in `W` a write. -/
inductive Instr where
  | passR (p : Port)
  | passW (p : Port) (v : Byte)
  | seqStdR (i : Byte)
  | seqStdW (i : Byte) (v : Byte)
  | seqUnlockR
  | seqUnlockW (v : Byte)
  | seqPum1R
  | seqPum1W (v : Byte)
  | seqMc2R
  | seqMc2W (v : Byte)
  | seqMc1R
  | seqMc1W (v : Byte)
  | seqPum2R
  | seqPum2W (v : Byte)
  | seqUnkR (i : Byte)
  | seqUnkW (i : Byte) (v : Byte)
  | crStdR (i : Byte)
  | crStdW (i : Byte) (v : Byte)
  | crModtestR
  | crModtestW (v : Byte)
  | crSwprogR
  | crSwprogW (v : Byte)
  | crLinapR
  | crLinapW (v : Byte)
  | crStarthiR
  | crStarthiW (v : Byte)
  | crOffextR
  | crOffextW (v : Byte)
  | crPixdepthR
  | crPixdepthW (v : Byte)
  | crMmioR
  | crMmioW (v : Byte)
  | crFinalR
  | crFinalW (v : Byte)
  | crUnkR (i : Byte)
  | crUnkW (i : Byte) (v : Byte)
  | gcStdR (i : Byte)
  | gcStdW (i : Byte) (v : Byte)
  | gcExtaR
  | gcExtaW (v : Byte)
  | gcExtbR
  | gcExtbW (v : Byte)
  | gcMiscR
  | gcMiscW (v : Byte)
  | gcUnkR (i : Byte)
  | gcUnkW (i : Byte) (v : Byte)
  | bankwR
  | bankwW (v : Byte)
  | bankrR
  | bankrW (v : Byte)
  | dacCmdR
  | dacCmdW (v : Byte)
  | dacRstR (r : DacReset)
  | dacRstW (r : DacReset) (v : Byte)
  | seqaIdxR
  | seqaIdxW (v : Byte)
  | seqaDataR (i : Byte)
  | seqaDataW (i : Byte) (v : Byte)
  | fbR (o : Offset)
  | fbW (o : Offset) (v : Byte)
  | reset
deriving DecidableEq, Repr

/-- Why a key is reserved (R77): it "spells no transaction, and the model refuses" it. -/
inductive ReservedKey where
  /-- Kind 101, 110 or 111. -/
  | kind
  /-- One of bits 36:33 is set. -/
  | zeroBits
  /-- A port access (kind 000 or 001) with bit 32 set. -/
  | ioAddressBit
deriving DecidableEq, Repr

end Sys2Proof
end

