-- ==== Sys2Proof/Machine/Ports.lean ====
section
/-! DEFINITION. Reading bits and 2-bit fields of a byte (00_scope.md R11), the ports and indices the block claims under a parameter
set (20_memory.md R56, 40_dispatch.md R91), and which parameter sets are legal (R7, R8, R9, R74, R236). -/

namespace Sys2Proof.Machine

/-- `v[n]`: bit n of a byte (R11). -/
def bit (v : Byte) (n : Fin 8) : Bool := v.getLsbD n.val

/-- `v[n+1:n]`: the 2-bit field whose low bit is bit n (R11, R8; log 11). -/
def field2 (v : Byte) (n : Fin 7) : BitVec 2 := v.extractLsb' n.val 2

/-- The active CRTC base (R91). -/
def crtcBase (P : Params) (misc : Byte) : Port :=
  if bit misc P.miscIoasBit then P.crtcBaseColor else P.crtcBaseMono

/-- The CRTC index port at the active base (R6); the host owns it. A sum past 0xFFFF wraps (DESIGN CHOICE, log 10). -/
def crtcIndexPort (P : Params) (misc : Byte) : Port := crtcBase P misc + P.offCrtcIndex

/-- The CRTC data port at the active base (R91). -/
def crtcDataPort (P : Params) (misc : Byte) : Port := crtcBase P misc + P.offCrtcData

/-- The write-bank alias port (R190). -/
def bankWPort (P : Params) (misc : Byte) : Port := crtcBase P misc + P.offBankW

/-- The read-bank alias port (R190). -/
def bankRPort (P : Params) (misc : Byte) : Port := crtcBase P misc + P.offBankR

/-- The port of a DAC reset access (R6, R213, R214). -/
def dacResetPort (P : Params) : DacReset → Port
  | .rst0 => P.pDacRst0
  | .rst1 => P.pDacRst1
  | .rst2 => P.pDacRst2

/-- The ports the block claims under the active CRTC base (R56); an unset alias port does not exist (R236). -/
def claimedPorts (P : Params) (misc : Byte) : List Port :=
  [P.pSeqData, P.pGcData, P.pDacCmd, P.pDacRst0, P.pDacRst1, P.pDacRst2,
   crtcDataPort P misc, bankWPort P misc, bankRPort P misc]
  ++ P.pSeqAliasIndex.toList ++ P.pSeqAliasData.toList

/-- The named chip-specific sequencer indices (R75). -/
def seqNamed (P : Params) : List Byte := [P.seqUnlock, P.seqPum1, P.seqMc2, P.seqMc1, P.seqPum2]

/-- The named chip-specific CRTC indices (R75); an unset CR_FINAL does not exist (R144, R236). -/
def crtcNamed (P : Params) : List Byte :=
  [P.crModtest, P.crSwprog, P.crLinap, P.crStarthi, P.crOffext, P.crPixdepth, P.crMmio] ++ P.crFinal.toList

/-- The named chip-specific graphics-controller indices (R75). -/
def gcNamed (P : Params) : List Byte := [P.gcExta, P.gcExtb, P.gcMisc]

/-- The named indices of a group are "pairwise distinct and each greater than that group's threshold" (R7). -/
abbrev indicesLegal (threshold : Byte) (named : List Byte) : Prop :=
  named.Nodup ∧ ∀ i ∈ named, threshold < i

/-- A misc-output byte that selects the colour base (R8: "1 selects CRTC_BASE_COLOR"). -/
def miscColor : Byte := BitVec.allOnes 8

/-- A misc-output byte that selects the mono base. -/
def miscMono : Byte := 0

/-- No two claimed ports are equal (R74), under either CRTC base (DEDUCED, log 9: R74 tests the claimed ports of R56, which the base
moves, and a parameter set has both bases). -/
abbrev portsLegal (P : Params) : Prop :=
  (claimedPorts P miscColor).Nodup ∧ (claimedPorts P miscMono).Nodup

/-- The bit-position conditions: no two fields of one byte overlap (R8, R236; 93_implementation_defined.md, the row of R8: "overlapping
positions are `refuse`"). The base-select bit of misc-output lies outside its clock-select field; the two clock-select bits and the two
divisor bits of mode-control-2 are four distinct bits; the suppression bit lies outside the depth field; the separated and enabled bits
of GC extension register B are distinct; the aperture's flag bits are distinct and outside bits 7:6 and 3:0. -/
abbrev bitsLegal (P : Params) : Prop :=
  P.miscIoasBit.val ∉ [P.miscCsLo.val, P.miscCsLo.val + 1] ∧
  [P.mc2Cs2Bit.val, P.mc2Cs3Bit.val, P.mc2Div.val, P.mc2Div.val + 1].Nodup ∧
  P.pdSuppBit.val ∉ [P.pdDepth.val, P.pdDepth.val + 1] ∧
  P.gcbSepBit ≠ P.gcbEnBit ∧
  P.laActiveBit ≠ P.laSizeBit ∧
  P.laActiveBit.val ∉ [7, 6, 3, 2, 1, 0] ∧ P.laSizeBit.val ∉ [7, 6, 3, 2, 1, 0]

/-- The parameter sets the model gives a meaning to (R236); every other one is refused. -/
def paramsLegal (P : Params) : Bool :=
  decide (0 < P.vramSize ∧ portsLegal P ∧
    indicesLegal P.seqStdMax (seqNamed P) ∧
    indicesLegal P.crtcStdMax (crtcNamed P) ∧
    indicesLegal P.gcStdMax (gcNamed P) ∧
    bitsLegal P)

end Sys2Proof.Machine
end

