-- ==== Sys2Proof/WellFormed.lean ====
section
/-! DEFINITION. Which operations a key can spell under a parameter set and a misc-output byte: the operand conditions of the rules
(30_encoding.md R74, R75; 40_dispatch.md R92 to R110; R121, R146, R166). -/

namespace Sys2Proof

open Sys2Proof.Machine

/-- An unknown chip-specific index: above the threshold and none of the named ones (R75, R121, R146, R166). -/
abbrev unknownIndex (threshold : Byte) (named : List Byte) (i : Byte) : Prop :=
  threshold < i ∧ i ∉ named

/-- The operand conditions of each operation's rule. A pass access names an unclaimed port (R92, R93); a standard access has an index
at or below its group's threshold (R97, R98, R101, R102, R105, R106); an unknown access has an unknown index; an operation of an OPEN
port or index exists only when its parameter is set (R107, R144, R236). -/
def Instr.wf (P : Params) (misc : Byte) : Instr → Bool
  | .passR p | .passW p _ => decide (p ∉ claimedPorts P misc)
  | .seqStdR i | .seqStdW i _ => decide (i ≤ P.seqStdMax)
  | .seqUnkR i | .seqUnkW i _ => decide (unknownIndex P.seqStdMax (seqNamed P) i)
  | .crStdR i | .crStdW i _ => decide (i ≤ P.crtcStdMax)
  | .crUnkR i | .crUnkW i _ => decide (unknownIndex P.crtcStdMax (crtcNamed P) i)
  | .gcStdR i | .gcStdW i _ => decide (i ≤ P.gcStdMax)
  | .gcUnkR i | .gcUnkW i _ => decide (unknownIndex P.gcStdMax (gcNamed P) i)
  | .crFinalR | .crFinalW _ => P.crFinal.isSome
  | .seqaIdxR | .seqaIdxW _ => P.pSeqAliasIndex.isSome
  | .seqaDataR _ | .seqaDataW _ _ => P.pSeqAliasData.isSome
  | .seqUnlockR | .seqUnlockW _ | .seqPum1R | .seqPum1W _ | .seqMc2R | .seqMc2W _
  | .seqMc1R | .seqMc1W _ | .seqPum2R | .seqPum2W _
  | .crModtestR | .crModtestW _ | .crSwprogR | .crSwprogW _ | .crLinapR | .crLinapW _
  | .crStarthiR | .crStarthiW _ | .crOffextR | .crOffextW _ | .crPixdepthR | .crPixdepthW _
  | .crMmioR | .crMmioW _
  | .gcExtaR | .gcExtaW _ | .gcExtbR | .gcExtbW _ | .gcMiscR | .gcMiscW _
  | .bankwR | .bankwW _ | .bankrR | .bankrW _
  | .dacCmdR | .dacCmdW _ | .dacRstR _ | .dacRstW _ _
  | .fbR _ | .fbW _ _ | .reset => true

end Sys2Proof
end

