-- ==== Sys2Proof/Decode.lean ====
section
/-! DEFINITION. The decoder of transaction keys (30_encoding.md R70, R74, R75, R77), total on every 40-bit value and refusing by name,
the encoder written from the same tables, and the host's table query `decodeTableWord`. -/

namespace Sys2Proof

open Sys2Proof.Machine

/-! ### The fields of a key (R70) -/

/-- Kind: 000 IOR, 001 IOW, 010 FBR, 011 FBW, 100 RST, 101 to 111 reserved. -/
def keyKind (k : Key) : BitVec 3 := k.extractLsb' 37 3

/-- Bits 36:33, which must be 0. -/
def keyZero (k : Key) : BitVec 4 := k.extractLsb' 33 4

/-- Bits 32:16: the port (with bit 32 = 0) or the window offset. -/
def keyAddr (k : Key) : BitVec 17 := k.extractLsb' 16 17

/-- Bits 31:16: the port of a port access. -/
def keyPort (k : Key) : Port := k.extractLsb' 16 16

/-- Bit 32, which must be 0 in a port access. -/
def keyIoBit (k : Key) : Bool := k.getLsbD 32

/-- Bits 15:8: the group's index. -/
def keyIdx (k : Key) : Byte := k.extractLsb' 8 8

/-- Bits 7:0: the byte written. -/
def keyData (k : Key) : Byte := k.extractLsb' 0 8

/-- A key from its fields, most significant first (R70). -/
def mkKey (kind : BitVec 3) (zero : BitVec 4) (addr : BitVec 17) (idx data : Byte) : Key :=
  kind ++ zero ++ addr ++ idx ++ data

/-- A port address in the 17-bit addr field: bit 32 of the key is 0 (R70). -/
def ioAddr (p : Port) : BitVec 17 := 0#1 ++ p

/-! ### Ports and indices -/

/-- What a port access reaches (R74). -/
inductive PortClass where
  | seqData
  | seqAliasData
  | seqAliasIndex
  | crtcData
  | bankW
  | bankR
  | gcData
  | dacCmd
  | dacRst (r : DacReset)
  | pass
deriving DecidableEq, Repr

/-- The port tests of R74, in its order. -/
def portClass (P : Params) (misc : Byte) (p : Port) : PortClass :=
  if p = P.pSeqData then .seqData
  else if some p = P.pSeqAliasData then .seqAliasData
  else if some p = P.pSeqAliasIndex then .seqAliasIndex
  else if p = crtcDataPort P misc then .crtcData
  else if p = bankWPort P misc then .bankW
  else if p = bankRPort P misc then .bankR
  else if p = P.pGcData then .gcData
  else if p = P.pDacCmd then .dacCmd
  else if p = P.pDacRst0 then .dacRst .rst0
  else if p = P.pDacRst1 then .dacRst .rst1
  else if p = P.pDacRst2 then .dacRst .rst2
  else .pass

/-- What a sequencer index names (R75). -/
inductive SeqReg where
  | std
  | unlock
  | pum1
  | mc2
  | mc1
  | pum2
  | unk
deriving DecidableEq, Repr

/-- The sequencer dispatch of R94 and R95, in its order. -/
def seqReg (P : Params) (i : Byte) : SeqReg :=
  if i ≤ P.seqStdMax then .std
  else if i = P.seqUnlock then .unlock
  else if i = P.seqPum1 then .pum1
  else if i = P.seqMc2 then .mc2
  else if i = P.seqMc1 then .mc1
  else if i = P.seqPum2 then .pum2
  else .unk

/-- The sequencer operation of an access at index `i`: the read, or the write of `v` (R94, R95). -/
def seqOp (P : Params) (write : Bool) (i v : Byte) : Instr :=
  match seqReg P i with
  | .std => if write then .seqStdW i v else .seqStdR i
  | .unlock => if write then .seqUnlockW v else .seqUnlockR
  | .pum1 => if write then .seqPum1W v else .seqPum1R
  | .mc2 => if write then .seqMc2W v else .seqMc2R
  | .mc1 => if write then .seqMc1W v else .seqMc1R
  | .pum2 => if write then .seqPum2W v else .seqPum2R
  | .unk => if write then .seqUnkW i v else .seqUnkR i

/-- The CRTC operation of an access at index `i`, tested in the order of R99 and R100. -/
def crtcOp (P : Params) (write : Bool) (i v : Byte) : Instr :=
  if i ≤ P.crtcStdMax then (if write then .crStdW i v else .crStdR i)
  else if i = P.crModtest then (if write then .crModtestW v else .crModtestR)
  else if i = P.crSwprog then (if write then .crSwprogW v else .crSwprogR)
  else if i = P.crLinap then (if write then .crLinapW v else .crLinapR)
  else if i = P.crStarthi then (if write then .crStarthiW v else .crStarthiR)
  else if i = P.crOffext then (if write then .crOffextW v else .crOffextR)
  else if i = P.crPixdepth then (if write then .crPixdepthW v else .crPixdepthR)
  else if i = P.crMmio then (if write then .crMmioW v else .crMmioR)
  else if some i = P.crFinal then (if write then .crFinalW v else .crFinalR)
  else (if write then .crUnkW i v else .crUnkR i)

/-- The graphics-controller operation of an access at index `i`, tested in the order of R103 and R104. -/
def gcOp (P : Params) (write : Bool) (i v : Byte) : Instr :=
  if i ≤ P.gcStdMax then (if write then .gcStdW i v else .gcStdR i)
  else if i = P.gcExta then (if write then .gcExtaW v else .gcExtaR)
  else if i = P.gcExtb then (if write then .gcExtbW v else .gcExtbR)
  else if i = P.gcMisc then (if write then .gcMiscW v else .gcMiscR)
  else (if write then .gcUnkW i v else .gcUnkR i)

/-- The operation of a port access (the I/O half of R74). -/
def portOp (P : Params) (misc : Byte) (write : Bool) (p : Port) (i v : Byte) : Instr :=
  match portClass P misc p with
  | .seqData => seqOp P write i v
  | .seqAliasData => if write then .seqaDataW i v else .seqaDataR i
  | .seqAliasIndex => if write then .seqaIdxW v else .seqaIdxR
  | .crtcData => crtcOp P write i v
  | .bankW => if write then .bankwW v else .bankwR
  | .bankR => if write then .bankrW v else .bankrR
  | .gcData => gcOp P write i v
  | .dacCmd => if write then .dacCmdW v else .dacCmdR
  | .dacRst r => if write then .dacRstW r v else .dacRstR r
  | .pass => if write then .passW p v else .passR p

/-! ### Decode -/

/-- A decoded key: an operation, or reserved with the reason (R74, R77). -/
inductive Decoded where
  | op (i : Instr)
  | reserved (why : ReservedKey)
deriving DecidableEq, Repr

/-- Decode (R74). It tests bits 36:33, the kind and bit 32 of a port access, and nothing else: the idx byte of a port that is no group data
port, the data byte of a read and bits 32:0 of RST are not looked at (log 12). -/
def decodeKey (P : Params) (misc : Byte) (k : Key) : Decoded :=
  if keyZero k ≠ 0 then .reserved .zeroBits
  else if 5 ≤ keyKind k then .reserved .kind
  else if keyKind k = 4 then .op .reset
  else if keyKind k = 2 then .op (.fbR (keyAddr k))
  else if keyKind k = 3 then .op (.fbW (keyAddr k) (keyData k))
  else if keyIoBit k then .reserved .ioAddressBit
  else .op (portOp P misc (keyKind k = 1) (keyPort k) (keyIdx k) (keyData k))

/-! ### Encode -/

/-- The key of a port read: kind 000. -/
def ioReadKey (p : Port) (i : Byte) : Key := mkKey 0 0 (ioAddr p) i 0

/-- The key of a port write: kind 001. -/
def ioWriteKey (p : Port) (i v : Byte) : Key := mkKey 1 0 (ioAddr p) i v

/-- The key of an operation (R70, R76): kind, port or offset, group index, data. For an operation of an unset OPEN port or index, which
no key spells, the port or index 0 is written; `Instr.wf` shuts it out. -/
def encodeKey (P : Params) (misc : Byte) : Instr → Key
  | .passR p => ioReadKey p 0
  | .passW p v => ioWriteKey p 0 v
  | .seqStdR i => ioReadKey P.pSeqData i
  | .seqStdW i v => ioWriteKey P.pSeqData i v
  | .seqUnlockR => ioReadKey P.pSeqData P.seqUnlock
  | .seqUnlockW v => ioWriteKey P.pSeqData P.seqUnlock v
  | .seqPum1R => ioReadKey P.pSeqData P.seqPum1
  | .seqPum1W v => ioWriteKey P.pSeqData P.seqPum1 v
  | .seqMc2R => ioReadKey P.pSeqData P.seqMc2
  | .seqMc2W v => ioWriteKey P.pSeqData P.seqMc2 v
  | .seqMc1R => ioReadKey P.pSeqData P.seqMc1
  | .seqMc1W v => ioWriteKey P.pSeqData P.seqMc1 v
  | .seqPum2R => ioReadKey P.pSeqData P.seqPum2
  | .seqPum2W v => ioWriteKey P.pSeqData P.seqPum2 v
  | .seqUnkR i => ioReadKey P.pSeqData i
  | .seqUnkW i v => ioWriteKey P.pSeqData i v
  | .crStdR i => ioReadKey (crtcDataPort P misc) i
  | .crStdW i v => ioWriteKey (crtcDataPort P misc) i v
  | .crModtestR => ioReadKey (crtcDataPort P misc) P.crModtest
  | .crModtestW v => ioWriteKey (crtcDataPort P misc) P.crModtest v
  | .crSwprogR => ioReadKey (crtcDataPort P misc) P.crSwprog
  | .crSwprogW v => ioWriteKey (crtcDataPort P misc) P.crSwprog v
  | .crLinapR => ioReadKey (crtcDataPort P misc) P.crLinap
  | .crLinapW v => ioWriteKey (crtcDataPort P misc) P.crLinap v
  | .crStarthiR => ioReadKey (crtcDataPort P misc) P.crStarthi
  | .crStarthiW v => ioWriteKey (crtcDataPort P misc) P.crStarthi v
  | .crOffextR => ioReadKey (crtcDataPort P misc) P.crOffext
  | .crOffextW v => ioWriteKey (crtcDataPort P misc) P.crOffext v
  | .crPixdepthR => ioReadKey (crtcDataPort P misc) P.crPixdepth
  | .crPixdepthW v => ioWriteKey (crtcDataPort P misc) P.crPixdepth v
  | .crMmioR => ioReadKey (crtcDataPort P misc) P.crMmio
  | .crMmioW v => ioWriteKey (crtcDataPort P misc) P.crMmio v
  | .crFinalR => ioReadKey (crtcDataPort P misc) (P.crFinal.getD 0)
  | .crFinalW v => ioWriteKey (crtcDataPort P misc) (P.crFinal.getD 0) v
  | .crUnkR i => ioReadKey (crtcDataPort P misc) i
  | .crUnkW i v => ioWriteKey (crtcDataPort P misc) i v
  | .gcStdR i => ioReadKey P.pGcData i
  | .gcStdW i v => ioWriteKey P.pGcData i v
  | .gcExtaR => ioReadKey P.pGcData P.gcExta
  | .gcExtaW v => ioWriteKey P.pGcData P.gcExta v
  | .gcExtbR => ioReadKey P.pGcData P.gcExtb
  | .gcExtbW v => ioWriteKey P.pGcData P.gcExtb v
  | .gcMiscR => ioReadKey P.pGcData P.gcMisc
  | .gcMiscW v => ioWriteKey P.pGcData P.gcMisc v
  | .gcUnkR i => ioReadKey P.pGcData i
  | .gcUnkW i v => ioWriteKey P.pGcData i v
  | .bankwR => ioReadKey (bankWPort P misc) 0
  | .bankwW v => ioWriteKey (bankWPort P misc) 0 v
  | .bankrR => ioReadKey (bankRPort P misc) 0
  | .bankrW v => ioWriteKey (bankRPort P misc) 0 v
  | .dacCmdR => ioReadKey P.pDacCmd 0
  | .dacCmdW v => ioWriteKey P.pDacCmd 0 v
  | .dacRstR r => ioReadKey (dacResetPort P r) 0
  | .dacRstW r v => ioWriteKey (dacResetPort P r) 0 v
  | .seqaIdxR => ioReadKey (P.pSeqAliasIndex.getD 0) 0
  | .seqaIdxW v => ioWriteKey (P.pSeqAliasIndex.getD 0) 0 v
  | .seqaDataR i => ioReadKey (P.pSeqAliasData.getD 0) i
  | .seqaDataW i v => ioWriteKey (P.pSeqAliasData.getD 0) i v
  | .fbR o => mkKey 2 0 o 0 0
  | .fbW o v => mkKey 3 0 o 0 v
  | .reset => mkKey 4 0 0 0 0

/-! ### The host's table query -/

/-- The misc-output byte the opcode table is written under: the colour base (R76, D40). -/
def tableMisc : Byte := 0x01

/-- The operation the decoder reads from the lowest `nbits` bits of `w`, under the parameters and the CRTC base the opcode table is
written under (R76: "the default parameters … and the colour CRTC base"); `none` where the key is reserved (log 14). -/
def decodeTableWord (nbits w : Nat) : Option Instr :=
  match decodeKey Params.default tableMisc (BitVec.ofNat 40 (w % 2 ^ nbits)) with
  | .op i => some i
  | .reserved _ => none

end Sys2Proof
end

