-- ==== Sys2Proof/Machine/State.lean ====
section
/-! DEFINITION. The state of the machine: the parameters, the chip state `st` of 10_state.md, what the host owns and the block reads
(00_scope.md R13), the histories and wires between the two, and the host's pending events. All of it is plain data. -/

namespace Sys2Proof.Machine

/-! ### Reasons to stop -/

/-- The block has no fault: "the block raises no exception" (R230) and none of its behaviours is a fault or a stuck state
(93_implementation_defined.md section 1). So no step of the model ends in a fault. -/
inductive Fault where
deriving DecidableEq, Repr

/-- The model's refusals (R236); the block itself refuses nothing. -/
inductive Refusal where
  /-- An operation whose meaning the model does not have yet; raised by `exec`'s arm alone. No arm raises it now. Safe. -/
  | notModelled (mnemonic : String)
  /-- The transaction's key is reserved (R77, R236); raised by `step`, before any effect (R233). Safe. -/
  | reservedKey (why : ReservedKey)
  /-- The parameter set is illegal (R7, R8, R74, R203, R236); raised by `step`. Safe. -/
  | illegalParameters
deriving DecidableEq, Repr

/-! ### Memory -/

/-- Byte storage by address, in one canonical form: addresses strictly rising, no entry equal to what an unlisted address reads as
(`Memory.wf`). It holds the video memory, the host's generic memory and the host's standard register files. -/
abbrev Memory := List Host.Cell

/-! ### The chip state `st` -/

/-- The DAC detector's state (R27). -/
inductive DacState where
  | idle
  | arming
  | active
deriving DecidableEq, Repr

/-- The chip-state object `st` (R20): the register cells of R22, the mode flag (R24), the bank selectors (R25), the DAC detector (R27),
the latched clock index (R28), the decoder's outputs (R29), the aperture outputs (R30) and the two output flags (R31, R32). -/
structure Chip where
  revision : Byte
  newMode : Bool
  pum1 : Byte
  pum2 : Byte
  mc2Old : Byte
  mc2New : Byte
  mc1Old : Byte
  mc1New : Byte
  crModtest : Byte
  crSwprog : Byte
  crLinap : Byte
  crOffext : Byte
  crPixdepth : Byte
  crMmio : Byte
  crFinal : Byte
  gcExta : Byte
  gcExtb : Byte
  gcMisc : Byte
  dacCmd : Byte
  dacState : DacState
  dacCount : Nat
  clockIdx : BitVec 4
  bankW : BitVec 5
  bankR : BitVec 5
  linAddr : Nat
  lin2mb : Bool
  linActive : Bool
  mmioActive : Bool
  altPost : Bool
  rgb8 : Bool
  rgb15 : Bool
  rgb16 : Bool
  rgb32 : Bool
  pixelClock : Option Nat
deriving DecidableEq, Repr

/-- The chip state after device reset (R39), under a revision byte. -/
def Chip.reset (revisionId : Byte) : Chip where
  revision := revisionId
  newMode := false
  pum1 := 0x00
  pum2 := 0x00
  mc2Old := 0x00
  mc2New := 0x00
  mc1Old := 0x00
  mc1New := 0x00
  crModtest := 0x00
  crSwprog := 0x00
  crLinap := 0x00
  crOffext := 0x00
  crPixdepth := 0x00
  crMmio := 0x00
  crFinal := 0x00
  gcExta := 0x00
  gcExtb := 0x00
  gcMisc := 0x00
  dacCmd := 0x00
  dacState := .idle
  dacCount := 0
  clockIdx := 0
  bankW := 0
  bankR := 0
  linAddr := 0
  lin2mb := false
  linActive := false
  mmioActive := false
  altPost := false
  rgb8 := false
  rgb15 := false
  rgb16 := false
  rgb32 := false
  pixelClock := none

/-! ### The host's side -/

/-- What the host owns (R13, R35): its index registers, misc-output register and display start address, which the block reads; and its
standard register files, generic window memory and video memory, which the block's transactions reach (R12). -/
structure HostSide where
  seqIndex : Byte
  crtcIndex : Byte
  gcIndex : Byte
  misc : Byte
  startAddr : Nat
  seqStd : Memory
  crtcStd : Memory
  gcStd : Memory
  genMem : Memory
  vram : Memory
deriving DecidableEq, Repr

/-- The host stand-in's start values (D40). The block's reset does not set them (R250, R251): that the model's reset state starts with them
is its own choice (DESIGN CHOICE, log 5). -/
def HostSide.standIn : HostSide where
  seqIndex := 0x00
  crtcIndex := 0x00
  gcIndex := 0x00
  misc := 0x01
  startAddr := 0
  seqStd := []
  crtcStd := []
  gcStd := []
  genMem := []
  vram := []

/-- The register groups of the host's standard handlers (R12). -/
inductive Group where
  | seq
  | crtc
  | gc
deriving DecidableEq, Repr

/-- One call of a host handler by the block (R12). The history of these calls is the model's own observation (log 8). -/
inductive HostCall where
  | stdRead (g : Group) (i : Byte)
  | stdWrite (g : Group) (i v : Byte)
  | portRead (p : Port)
  | portWrite (p : Port) (v : Byte)
  | memRead (o : Offset)
  | memWrite (o : Offset) (v : Byte)
deriving DecidableEq, Repr

/-- What the bus carries of one transaction: every field of its key but the idx byte, which "is not driven by the bus" (R72). `answer` is
the byte the host's handler answers if the transaction calls a read handler; with `none` the stand-in's byte is taken (log 6). -/
structure BusRequest where
  kind : BitVec 3
  zero : BitVec 4
  addr : BitVec 17
  data : Byte
  answer : Option Byte
deriving DecidableEq, Repr

/-- One thing the host does next: a transaction, or an action on what it owns (R13, R35, R60, R79). -/
inductive HostEvent where
  | access (r : BusRequest)
  | setSeqIndex (v : Byte)
  | setCrtcIndex (v : Byte)
  | setGcIndex (v : Byte)
  | setMisc (v : Byte)
  | setStartAddr (n : Nat)
  | setVram (a : Nat) (v : Byte)
deriving DecidableEq, Repr

/-! ### The whole state -/

/-- The machine's state. -/
structure State where
  /-- The implementation parameters (R6 to R9); no step changes them. -/
  params : Params
  /-- The chip state (R20). -/
  st : Chip
  /-- What the host owns (R13). -/
  host : HostSide
  /-- The timing-sink history Tlog, oldest first (R40, R184). -/
  tlog : List (Nat × Nat)
  /-- The calls of host handlers made so far, oldest first; the model's own field (log 8). -/
  calls : List HostCall
  /-- The host's answer in the transaction at hand; the model's own field (log 6). -/
  answer : Option Byte
  /-- The byte the last transaction yielded (R71); the model's own field (log 8). -/
  result : Option Byte
  /-- What the host does next, first event first; the model's own field (log 1). -/
  pending : List HostEvent
deriving DecidableEq, Repr

/-- The machine right after reset: `st` as R39 gives it, under the parameters of log 2 to 4; the host at the stand-in's start values
(log 5); no history, no pending event (logs 1, 6, 8). -/
def State.reset : State where
  params := Params.default
  st := Chip.reset Params.default.revisionId
  host := HostSide.standIn
  tlog := []
  calls := []
  answer := none
  result := none
  pending := []

end Sys2Proof.Machine
end

