-- ==== Sys2Proof/Machine/Ops.lean ====
section
/-! DEFINITION. The named operations the meanings are written over: byte storage, the host's handlers (00_scope.md R12), the end of a
transaction (30_encoding.md R71). There is no exception to take and none to return from (60_exceptions.md R230, R234, R235), so no
operation takes one. -/

namespace Sys2Proof.Machine

/-- What one operation answers. -/
abbrev Outcome := Host.Outcome State Fault Refusal

/-! ### Byte storage -/

/-- What an address that is not listed reads as: the stand-in's start value 0x00 (D40; DESIGN CHOICE, log 7). -/
def unlistedByte : Byte := 0x00

/-- The byte at an address. -/
def Memory.read : Memory → Nat → Byte
  | [], _ => unlistedByte
  | (b, w) :: rest, a => if a = b then w else Memory.read rest a

/-- The byte `v` written at `a`, in canonical form: writing what an unlisted address reads as removes the entry. -/
def Memory.write : Memory → Nat → Byte → Memory
  | [], a, v => if v = unlistedByte then [] else [(a, v)]
  | (b, w) :: rest, a, v =>
    if a < b then (if v = unlistedByte then (b, w) :: rest else (a, v) :: (b, w) :: rest)
    else if a = b then (if v = unlistedByte then rest else (a, v) :: rest)
    else (b, w) :: Memory.write rest a v

/-- The canonical form: addresses strictly rising, and no entry equal to what an unlisted address reads as. -/
abbrev Memory.wf (m : Memory) : Prop :=
  m.Pairwise (fun x y => x.1 < y.1) ∧ ∀ c ∈ m, c.2 ≠ unlistedByte

/-! ### The end of a transaction -/

/-- `return b` of a read transaction (R12, R71). -/
def yields (b : Byte) (s : State) : Outcome := .next { s with result := some b }

/-- The end of a transaction that yields nothing (R71). -/
def yieldsNothing (s : State) : Outcome := .next { s with result := none }

/-! ### Updates of one part of the state -/

/-- The state with chip state `c`. -/
def State.withChip (s : State) (c : Chip) : State := { s with st := c }

/-- The state with the host's side `h`. -/
def State.withHost (s : State) (h : HostSide) : State := { s with host := h }

/-- The state with one more call of a host handler in its history (log 8). -/
def State.logCall (s : State) (c : HostCall) : State := { s with calls := s.calls ++ [c] }

/-! ### The host's handlers (R12)

What a handler answers is the host's to decide (93_implementation_defined.md section 1): the answer the host gave with the transaction,
or else the stand-in's byte (D40, logs 5 and 6). What a handler does with a write changes the host's side only. -/

/-- The host's answer to a read: the one it gave, else the stand-in's byte `standIn`. -/
def State.hostByte (s : State) (standIn : Byte) : Byte := s.answer.getD standIn

/-- A group's standard register file. -/
def HostSide.stdFile (h : HostSide) : Group → Memory
  | .seq => h.seqStd
  | .crtc => h.crtcStd
  | .gc => h.gcStd

/-- The host's side with one standard register written. -/
def HostSide.writeStd (h : HostSide) (g : Group) (i v : Byte) : HostSide :=
  match g with
  | .seq => { h with seqStd := h.seqStd.write i.toNat v }
  | .crtc => { h with crtcStd := h.crtcStd.write i.toNat v }
  | .gc => { h with gcStd := h.gcStd.write i.toNat v }

/-- What the stand-in answers to a port read (D40): its index register at the index port of a group, 0xFF at every other port. -/
def standInPort (P : Params) (h : HostSide) (p : Port) : Byte :=
  if p = P.pSeqIndex then h.seqIndex
  else if p = P.pGcIndex then h.gcIndex
  else if p = crtcIndexPort P h.misc then h.crtcIndex
  else 0xFF

/-- What the stand-in does on a port write (D40): it stores the byte in the group's index register, and ignores every other port. -/
def standInPortWrite (P : Params) (h : HostSide) (p : Port) (v : Byte) : HostSide :=
  if p = P.pSeqIndex then { h with seqIndex := v }
  else if p = P.pGcIndex then { h with gcIndex := v }
  else if p = crtcIndexPort P h.misc then { h with crtcIndex := v }
  else h

/-- `return H.StdRead(g, i)`. -/
def hostStdRead (g : Group) (i : Byte) (s : State) : Outcome :=
  yields (s.hostByte ((s.host.stdFile g).read i.toNat)) (s.logCall (.stdRead g i))

/-- `H.StdWrite(g, i, v)`. -/
def hostStdWrite (g : Group) (i v : Byte) (s : State) : State :=
  (s.withHost (s.host.writeStd g i v)).logCall (.stdWrite g i v)

/-- `return H.PortRead(p)`. -/
def hostPortRead (p : Port) (s : State) : Outcome :=
  yields (s.hostByte (standInPort s.params s.host p)) (s.logCall (.portRead p))

/-- `H.PortWrite(p, v)`. -/
def hostPortWrite (p : Port) (v : Byte) (s : State) : State :=
  (s.withHost (standInPortWrite s.params s.host p v)).logCall (.portWrite p v)

/-- `return H.MemRead(o)`: the host's generic, non-banked handler (R200). -/
def hostMemRead (o : Offset) (s : State) : Outcome :=
  yields (s.hostByte (s.host.genMem.read o.toNat)) (s.logCall (.memRead o))

/-- `H.MemWrite(o, v)`: the host's generic, non-banked handler (R200). -/
def hostMemWrite (o : Offset) (v : Byte) (s : State) : State :=
  (s.withHost { s.host with genMem := s.host.genMem.write o.toNat v }).logCall (.memWrite o v)

/-! ### Video memory (R12) -/

/-- `MemRead(a, 1)`. -/
def vramRead (a : Nat) (s : State) : Byte := s.host.vram.read a

/-- `MemWrite(a, 1, v)`. -/
def vramWrite (a : Nat) (v : Byte) (s : State) : State :=
  s.withHost { s.host with vram := s.host.vram.write a v }

/-! ### Shapes shared by the storage cells -/

/-- The read of a cell: "the stored shadow verbatim" (R22). -/
def cellRead (b : Byte) (s : State) : Outcome := yields b s

/-- A write that ends with chip state `c` and does nothing else. -/
def chipWrite (c : Chip) (s : State) : Outcome := yieldsNothing (s.withChip c)

/-- The read at an unknown chip-specific index: the sentinel (R96). -/
def unknownRead (s : State) : Outcome := yields 0xFF s

/-- The write at an unknown chip-specific index: no operation (R96). -/
def unknownWrite (s : State) : Outcome := yieldsNothing s

end Sys2Proof.Machine
end

