-- ==== Sys2Proof/Machine/Operands.lean ====
section
/-! DEFINITION. What the operations compute from their operands: bank values (R118, R192), the clock select (R177), the aperture address
(R135), the start-address bits (R136), the framebuffer offset (R200 to R204). -/

namespace Sys2Proof.Machine

/-- `v & 0x1F` as a bank selector: the low five bits (R25). -/
def bankOf (v : Byte) : BitVec 5 := v.extractLsb' 0 5

/-- A new-mode write inverts bit 1 of the byte it stores (R10, R118). -/
def invertBit1 (v : Byte) : Byte := v ^^^ 0x02

/-- The bank a mode-control-1 write selects (R118): masked, with bit 1 inverted in new mode. -/
def mc1Bank (newMode : Bool) (v : Byte) : BitVec 5 :=
  if newMode then bankOf v ^^^ 0x02 else bankOf v

/-- The "bank registers separated" bit of GC extension register B (R163). -/
def separated (P : Params) (c : Chip) : Bool := bit c.gcExtb P.gcbSepBit

/-- The "bank registers enabled" bit of GC extension register B (R163, R190). -/
def aliasEnabled (P : Params) (c : Chip) : Bool := bit c.gcExtb P.gcbEnBit

/-- Write bank `b`; the read bank follows unless separated (R26, R118, R192). -/
def writeBank (P : Params) (b : BitVec 5) (c : Chip) : Chip :=
  { c with bankW := b, bankR := if separated P c then c.bankR else b }

/-- `clock_select(v, misc)` (R177): misc bits low, then the low mode-control-2 bit, then the high one. -/
def clockSelect (P : Params) (v misc : Byte) : BitVec 4 :=
  (BitVec.ofBool (bit v P.mc2Cs3Bit) ++ BitVec.ofBool (bit v P.mc2Cs2Bit)) ++ field2 misc P.miscCsLo

/-- The aperture address of a control byte (R135): bits 7:6 go to 25:24, bits 3:0 to 23:20. -/
def apertureAddr (v : Byte) : Nat := (((v &&& 0xC0).toNat) <<< 18) ||| (((v &&& 0x0F).toNat) <<< 20)

/-- `zext_8(H.start_addr[18:17])` (R136). -/
def startAddrHigh (n : Nat) : Byte := BitVec.ofNat 8 ((n >>> 17) % 4)

/-- A window access is banked while any depth flag is asserted (R200). -/
def banked (c : Chip) : Bool := c.rgb8 || c.rgb15 || c.rgb16 || c.rgb32

/-- The offset inside the window the mode lets through: 16 bits in new mode, all 17 in old mode (R201, R202). -/
def windowOffset (newMode : Bool) (o : Offset) : Nat :=
  if newMode then o.toNat &&& 0xFFFF else o.toNat

/-- The storage offset of a banked access (R201, R202): the exact natural remainder (R204). -/
def effectiveOffset (P : Params) (newMode : Bool) (bank : BitVec 5) (o : Offset) : Nat :=
  (windowOffset newMode o + bank.toNat * 65536) % P.vramSize

end Sys2Proof.Machine
end

