-- ==== Sys2Proof/Machine/Flags.lean ====
section
/-! DEFINITION. The Mode Decoder (44_mode_decoder.md): the clock table, the divisor, the depth flags and one decode pass. -/

namespace Sys2Proof.Machine

/-- `CLK[i]`, in Hz (R176). -/
def clockTable (i : BitVec 4) : Nat :=
  [25174800, 28636360, 44900000, 36000000, 57272000, 65000000, 50350000, 40000000,
   88000000, 98000000, 118800000, 108000000, 72000000, 77000000, 80000000, 75000000].getD i.toNat 0

/-- The divisor codes (R178): 0 is ÷1, 1 is ÷2, 2 is ÷4, 3 is ÷1.5 rounded down. -/
def dividedClock (d : BitVec 2) (clk : Nat) : Nat :=
  if d = 0 then clk
  else if d = 1 then clk / 2
  else if d = 2 then clk / 4
  else (2 * clk) / 3

/-- The pixel clock a decode pass resolves (R178, R180): from the latched index and the new-mode mode-control-2 cell. -/
def resolvedClock (P : Params) (c : Chip) : Nat :=
  dividedClock (field2 c.mc2New P.mc2Div) (clockTable c.clockIdx)

/-- The depth-select field (R179). -/
def depthSelect (P : Params) (c : Chip) : BitVec 2 := field2 c.crPixdepth P.pdDepth

/-- The suppression bit (R179). -/
def suppressed (P : Params) (c : Chip) : Bool := bit c.crPixdepth P.pdSuppBit

/-- The DAC command byte's high nibble (R175). -/
def dacNibble (c : Chip) : BitVec 4 := c.dacCmd.extractLsb' 4 4

/-- The chip state a decode pass leaves (R179, R180): the four depth flags by the decode table, and the pixel clock. -/
def decodedChip (P : Params) (c : Chip) : Chip :=
  { c with
    rgb8 := depthSelect P c == 0 && !suppressed P c
    rgb15 := depthSelect P c == 1 && dacNibble c != 3
    rgb16 := depthSelect P c == 1 && dacNibble c == 3
    rgb32 := depthSelect P c == 2
    pixelClock := some (resolvedClock P c) }

/-- `Decode()`: one pass and its one call of the timing sink (R180, R184). -/
def modeDecode (s : State) : State :=
  { s with
    st := decodedChip s.params s.st
    tlog := s.tlog ++ [(s.params.timingDivPlaceholder, resolvedClock s.params s.st)] }

end Sys2Proof.Machine
end

