-- ==== Sys2Proof/Machine/Seq.lean ====
section
/-! DEFINITION. The sequencer data port: standard indices (40_dispatch.md R97, R98) and the chip registers (41_seq_regs.md). -/

namespace Sys2Proof.Machine

/-- SEQ_STD_R (R97). -/
def execSeqStdR (i : Byte) (s : State) : Outcome := hostStdRead .seq i s

/-- SEQ_STD_W (R98): no Decode(). -/
def execSeqStdW (i v : Byte) (s : State) : Outcome := yieldsNothing (hostStdWrite .seq i v s)

/-- SEQ_UNLOCK_R (R111): new mode, and the revision byte. -/
def execSeqUnlockR (s : State) : Outcome :=
  yields s.st.revision (s.withChip { s.st with newMode := true })

/-- SEQ_UNLOCK_W (R112): old mode; the byte written is ignored. -/
def execSeqUnlockW (_v : Byte) (s : State) : Outcome := chipWrite { s.st with newMode := false } s

/-- SEQ_PUM1_R (R113). -/
def execSeqPum1R (s : State) : Outcome := cellRead s.st.pum1 s

/-- SEQ_PUM1_W (R114). -/
def execSeqPum1W (v : Byte) (s : State) : Outcome :=
  chipWrite { s.st with pum1 := v, altPost := bit v s.params.pum1AltpostBit } s

/-- SEQ_MC2_R (R115): the cell the mode selects. -/
def execSeqMc2R (s : State) : Outcome := cellRead (if s.st.newMode then s.st.mc2New else s.st.mc2Old) s

/-- SEQ_MC2_W (R116): in new mode the clock index is latched from the byte and H.misc, then Decode() runs. -/
def execSeqMc2W (v : Byte) (s : State) : Outcome :=
  if s.st.newMode then
    yieldsNothing (modeDecode (s.withChip
      { s.st with mc2New := v, clockIdx := clockSelect s.params v s.host.misc }))
  else
    chipWrite { s.st with mc2Old := v } s

/-- SEQ_MC1_R (R117): the cell the mode selects, not inverted again. -/
def execSeqMc1R (s : State) : Outcome := cellRead (if s.st.newMode then s.st.mc1New else s.st.mc1Old) s

/-- SEQ_MC1_W (R118): the cell the mode selects, then the banks. -/
def execSeqMc1W (v : Byte) (s : State) : Outcome :=
  let c := if s.st.newMode then { s.st with mc1New := invertBit1 v } else { s.st with mc1Old := v }
  chipWrite (writeBank s.params (mc1Bank s.st.newMode v) c) s

/-- SEQ_PUM2_R (R119). -/
def execSeqPum2R (s : State) : Outcome := cellRead s.st.pum2 s

/-- SEQ_PUM2_W (R120). -/
def execSeqPum2W (v : Byte) (s : State) : Outcome := chipWrite { s.st with pum2 := v } s

/-- SEQ_UNK_R (R121). -/
def execSeqUnkR (_i : Byte) (s : State) : Outcome := unknownRead s

/-- SEQ_UNK_W (R122). -/
def execSeqUnkW (_i _v : Byte) (s : State) : Outcome := unknownWrite s

end Sys2Proof.Machine
end

