-- ==== Sys2Proof/Machine/Alias.lean ====
section
/-! DEFINITION. The sequencer alias ports (40_dispatch.md R107 to R110). -/

namespace Sys2Proof.Machine

/-- SEQA_IDX_R (R107): `return H.PortRead(P_SEQ_INDEX)`. -/
def execSeqaIdxR (s : State) : Outcome := hostPortRead s.params.pSeqIndex s

/-- SEQA_IDX_W (R108): `H.PortWrite(P_SEQ_INDEX, v)`. -/
def execSeqaIdxW (v : Byte) (s : State) : Outcome := yieldsNothing (hostPortWrite s.params.pSeqIndex v s)

/-- SEQA_DATA_R (R109): `seq_read(idx)` of R94, with every effect of the selected rule. -/
def execSeqaDataR (i : Byte) (s : State) : Outcome :=
  match seqReg s.params i with
  | .std => execSeqStdR i s
  | .unlock => execSeqUnlockR s
  | .pum1 => execSeqPum1R s
  | .mc2 => execSeqMc2R s
  | .mc1 => execSeqMc1R s
  | .pum2 => execSeqPum2R s
  | .unk => execSeqUnkR i s

/-- SEQA_DATA_W (R110): the write dispatch of R95. -/
def execSeqaDataW (i v : Byte) (s : State) : Outcome :=
  match seqReg s.params i with
  | .std => execSeqStdW i v s
  | .unlock => execSeqUnlockW v s
  | .pum1 => execSeqPum1W v s
  | .mc2 => execSeqMc2W v s
  | .mc1 => execSeqMc1W v s
  | .pum2 => execSeqPum2W v s
  | .unk => execSeqUnkW i v s

end Sys2Proof.Machine
end

