-- ==== Sys2Proof/Machine/Bank.lean ====
section
/-! DEFINITION. The bank-alias ports (45_bank_alias.md R190 to R194). -/

namespace Sys2Proof.Machine

/-- BANKW_R (R191): the write bank when enabled, else 0xFF. -/
def execBankwR (s : State) : Outcome :=
  yields (if aliasEnabled s.params s.st then s.st.bankW.zeroExtend 8 else 0xFF) s

/-- BANKW_W (R192): ignored unless enabled; no inversion and no cell on this path. -/
def execBankwW (v : Byte) (s : State) : Outcome :=
  if aliasEnabled s.params s.st then chipWrite (writeBank s.params (bankOf v) s.st) s
  else yieldsNothing s

/-- BANKR_R (R193): the read bank when enabled and separated, else 0xFF. -/
def execBankrR (s : State) : Outcome :=
  yields (if aliasEnabled s.params s.st && separated s.params s.st then s.st.bankR.zeroExtend 8 else 0xFF) s

/-- BANKR_W (R194): ignored unless enabled and separated. -/
def execBankrW (v : Byte) (s : State) : Outcome :=
  if aliasEnabled s.params s.st && separated s.params s.st then chipWrite { s.st with bankR := bankOf v } s
  else yieldsNothing s

end Sys2Proof.Machine
end

