-- ==== Sys2Proof/Machine/Crtc.lean ====
section
/-! DEFINITION. The CRTC data port: standard indices (40_dispatch.md R101, R102) and the chip registers (42_crtc_regs.md). -/

namespace Sys2Proof.Machine

/-- CR_STD_R (R101). -/
def execCrStdR (i : Byte) (s : State) : Outcome := hostStdRead .crtc i s

/-- CR_STD_W (R102): the host's write, then Decode(). -/
def execCrStdW (i v : Byte) (s : State) : Outcome := yieldsNothing (modeDecode (hostStdWrite .crtc i v s))

/-- CR_MODTEST_R (R130). -/
def execCrModtestR (s : State) : Outcome := cellRead s.st.crModtest s

/-- CR_MODTEST_W (R131). -/
def execCrModtestW (v : Byte) (s : State) : Outcome := chipWrite { s.st with crModtest := v } s

/-- CR_SWPROG_R (R132). -/
def execCrSwprogR (s : State) : Outcome := cellRead s.st.crSwprog s

/-- CR_SWPROG_W (R133). -/
def execCrSwprogW (v : Byte) (s : State) : Outcome := chipWrite { s.st with crSwprog := v } s

/-- CR_LINAP_R (R134). -/
def execCrLinapR (s : State) : Outcome := cellRead s.st.crLinap s

/-- CR_LINAP_W (R135): the cell and the three aperture outputs. -/
def execCrLinapW (v : Byte) (s : State) : Outcome :=
  chipWrite { s.st with
    crLinap := v
    linAddr := apertureAddr v
    linActive := bit v s.params.laActiveBit
    lin2mb := bit v s.params.laSizeBit } s

/-- CR_STARTHI_R (R136): synthesized from the host's start address. -/
def execCrStarthiR (s : State) : Outcome := yields (startAddrHigh s.host.startAddr) s

/-- CR_STARTHI_W (R137): no operation. -/
def execCrStarthiW (_v : Byte) (s : State) : Outcome := yieldsNothing s

/-- CR_OFFEXT_R (R138). -/
def execCrOffextR (s : State) : Outcome := cellRead s.st.crOffext s

/-- CR_OFFEXT_W (R139). -/
def execCrOffextW (v : Byte) (s : State) : Outcome := chipWrite { s.st with crOffext := v } s

/-- CR_PIXDEPTH_R (R140). -/
def execCrPixdepthR (s : State) : Outcome := cellRead s.st.crPixdepth s

/-- CR_PIXDEPTH_W (R141): the cell, then Decode(). -/
def execCrPixdepthW (v : Byte) (s : State) : Outcome :=
  yieldsNothing (modeDecode (s.withChip { s.st with crPixdepth := v }))

/-- CR_MMIO_R (R142). -/
def execCrMmioR (s : State) : Outcome := cellRead s.st.crMmio s

/-- CR_MMIO_W (R143). -/
def execCrMmioW (v : Byte) (s : State) : Outcome :=
  chipWrite { s.st with crMmio := v, mmioActive := bit v s.params.mmioBit } s

/-- CR_FINAL_R (R144). -/
def execCrFinalR (s : State) : Outcome := cellRead s.st.crFinal s

/-- CR_FINAL_W (R145). -/
def execCrFinalW (v : Byte) (s : State) : Outcome := chipWrite { s.st with crFinal := v } s

/-- CR_UNK_R (R146). -/
def execCrUnkR (_i : Byte) (s : State) : Outcome := unknownRead s

/-- CR_UNK_W (R147): no Decode() either. -/
def execCrUnkW (_i _v : Byte) (s : State) : Outcome := unknownWrite s

end Sys2Proof.Machine
end

