-- ==== Sys2Proof/Machine/Dac.lean ====
section
/-! DEFINITION. The DAC Passthrough Detector (47_dac.md R210 to R215). -/

namespace Sys2Proof.Machine

/-- One more command-port access while Idle or Arming (R210): the count rises, and the fourth access makes the detector Active. -/
def detectorCount (c : Chip) : Chip :=
  { c with
    dacCount := c.dacCount + 1
    dacState := if c.dacCount + 1 = 4 then .active else .arming }

/-- The detector back in Idle (R210). -/
def detectorIdle (c : Chip) : Chip := { c with dacCount := 0, dacState := .idle }

/-- DAC_CMD_R (R211): the command byte while Active, else the palette, counting. -/
def execDacCmdR (s : State) : Outcome :=
  if s.st.dacState = .active then yields s.st.dacCmd s
  else hostPortRead s.params.pDacCmd (s.withChip (detectorCount s.st))

/-- DAC_CMD_W (R212): while Active the command byte, Idle and Decode(); else the palette, counting. -/
def execDacCmdW (v : Byte) (s : State) : Outcome :=
  if s.st.dacState = .active then
    yieldsNothing (modeDecode (s.withChip (detectorIdle { s.st with dacCmd := v })))
  else
    yieldsNothing (hostPortWrite s.params.pDacCmd v (s.withChip (detectorCount s.st)))

/-- DAC_RST_R (R213): Idle in every state, then the palette. -/
def execDacRstR (r : DacReset) (s : State) : Outcome :=
  hostPortRead (dacResetPort s.params r) (s.withChip (detectorIdle s.st))

/-- DAC_RST_W (R214): Idle in every state, then the palette. -/
def execDacRstW (r : DacReset) (v : Byte) (s : State) : Outcome :=
  yieldsNothing (hostPortWrite (dacResetPort s.params r) v (s.withChip (detectorIdle s.st)))

end Sys2Proof.Machine
end

