-- ==== Sys2Proof/Machine/Fb.lean ====
section
/-! DEFINITION. The Memory Access Translator (46_mem_translator.md R200 to R204). -/

namespace Sys2Proof.Machine

/-- FB_R (R201): the byte of video memory under the read bank, or the host's generic handler when not banked. -/
def execFbR (o : Offset) (s : State) : Outcome :=
  if banked s.st then yields (vramRead (effectiveOffset s.params s.st.newMode s.st.bankR o) s) s
  else hostMemRead o s

/-- FB_W (R202): the byte of video memory under the write bank, or the host's generic handler when not banked. -/
def execFbW (o : Offset) (v : Byte) (s : State) : Outcome :=
  if banked s.st then
    yieldsNothing (vramWrite (effectiveOffset s.params s.st.newMode s.st.bankW o) v s)
  else yieldsNothing (hostMemWrite o v s)

end Sys2Proof.Machine
end

