-- ==== Sys2Proof/Machine/Gc.lean ====
section
/-! DEFINITION. The graphics-controller data port: standard indices (40_dispatch.md R105, R106) and the chip registers
(43_gc_regs.md). -/

namespace Sys2Proof.Machine

/-- GC_STD_R (R105). -/
def execGcStdR (i : Byte) (s : State) : Outcome := hostStdRead .gc i s

/-- GC_STD_W (R106): no Decode(). -/
def execGcStdW (i v : Byte) (s : State) : Outcome := yieldsNothing (hostStdWrite .gc i v s)

/-- GC_EXTA_R (R160). -/
def execGcExtaR (s : State) : Outcome := cellRead s.st.gcExta s

/-- GC_EXTA_W (R161): the cell, and the read bank when separated. -/
def execGcExtaW (v : Byte) (s : State) : Outcome :=
  chipWrite { s.st with gcExta := v, bankR := if separated s.params s.st then bankOf v else s.st.bankR } s

/-- GC_EXTB_R (R162). -/
def execGcExtbR (s : State) : Outcome := cellRead s.st.gcExtb s

/-- GC_EXTB_W (R163): the cell only; no bank changes (R26). -/
def execGcExtbW (v : Byte) (s : State) : Outcome := chipWrite { s.st with gcExtb := v } s

/-- GC_MISC_R (R164). -/
def execGcMiscR (s : State) : Outcome := cellRead s.st.gcMisc s

/-- GC_MISC_W (R165): storage only; no interrupt (R232). -/
def execGcMiscW (v : Byte) (s : State) : Outcome := chipWrite { s.st with gcMisc := v } s

/-- GC_UNK_R (R166). -/
def execGcUnkR (_i : Byte) (s : State) : Outcome := unknownRead s

/-- GC_UNK_W (R167). -/
def execGcUnkW (_i _v : Byte) (s : State) : Outcome := unknownWrite s

end Sys2Proof.Machine
end

