-- ==== Sys2Proof/Machine/Pass.lean ====
section
/-! DEFINITION. Ports the block does not claim (40_dispatch.md R92, R93). -/

namespace Sys2Proof.Machine

/-- PASS_R (R92): `return H.PortRead(p)`. -/
def execPassR (p : Port) (s : State) : Outcome := hostPortRead p s

/-- PASS_W (R93): `H.PortWrite(p, v)`. -/
def execPassW (p : Port) (v : Byte) (s : State) : Outcome := yieldsNothing (hostPortWrite p v s)

end Sys2Proof.Machine
end

