-- ==== Sys2Proof/Machine/Reset.lean ====
section
/-! DEFINITION. Device reset (70_reset_and_hazards.md R250). -/

namespace Sys2Proof.Machine

/-- RESET (R250): every field of `st` to its reset value; no Decode(), no Tlog entry, no host call, nothing of the host's. -/
def execReset (s : State) : Outcome := chipWrite (Chip.reset s.params.revisionId) s

end Sys2Proof.Machine
end

