-- ==== Sys2Proof/Machine/Dispatch.lean ====
section
/-! DEFINITION. One arm per operation of spec/opcode_table.json: the direct call of its meaning. -/

namespace Sys2Proof.Machine

def exec (i : Instr) (s : State) : Host.Outcome State Fault Refusal :=
  match i with
  | .passR p => Sys2Proof.Machine.execPassR p s
  | .passW p v => Sys2Proof.Machine.execPassW p v s
  | .seqStdR ix => Sys2Proof.Machine.execSeqStdR ix s
  | .seqStdW ix v => Sys2Proof.Machine.execSeqStdW ix v s
  | .seqUnlockR => Sys2Proof.Machine.execSeqUnlockR s
  | .seqUnlockW v => Sys2Proof.Machine.execSeqUnlockW v s
  | .seqPum1R => Sys2Proof.Machine.execSeqPum1R s
  | .seqPum1W v => Sys2Proof.Machine.execSeqPum1W v s
  | .seqMc2R => Sys2Proof.Machine.execSeqMc2R s
  | .seqMc2W v => Sys2Proof.Machine.execSeqMc2W v s
  | .seqMc1R => Sys2Proof.Machine.execSeqMc1R s
  | .seqMc1W v => Sys2Proof.Machine.execSeqMc1W v s
  | .seqPum2R => Sys2Proof.Machine.execSeqPum2R s
  | .seqPum2W v => Sys2Proof.Machine.execSeqPum2W v s
  | .seqUnkR ix => Sys2Proof.Machine.execSeqUnkR ix s
  | .seqUnkW ix v => Sys2Proof.Machine.execSeqUnkW ix v s
  | .crStdR ix => Sys2Proof.Machine.execCrStdR ix s
  | .crStdW ix v => Sys2Proof.Machine.execCrStdW ix v s
  | .crModtestR => Sys2Proof.Machine.execCrModtestR s
  | .crModtestW v => Sys2Proof.Machine.execCrModtestW v s
  | .crSwprogR => Sys2Proof.Machine.execCrSwprogR s
  | .crSwprogW v => Sys2Proof.Machine.execCrSwprogW v s
  | .crLinapR => Sys2Proof.Machine.execCrLinapR s
  | .crLinapW v => Sys2Proof.Machine.execCrLinapW v s
  | .crStarthiR => Sys2Proof.Machine.execCrStarthiR s
  | .crStarthiW v => Sys2Proof.Machine.execCrStarthiW v s
  | .crOffextR => Sys2Proof.Machine.execCrOffextR s
  | .crOffextW v => Sys2Proof.Machine.execCrOffextW v s
  | .crPixdepthR => Sys2Proof.Machine.execCrPixdepthR s
  | .crPixdepthW v => Sys2Proof.Machine.execCrPixdepthW v s
  | .crMmioR => Sys2Proof.Machine.execCrMmioR s
  | .crMmioW v => Sys2Proof.Machine.execCrMmioW v s
  | .crFinalR => Sys2Proof.Machine.execCrFinalR s
  | .crFinalW v => Sys2Proof.Machine.execCrFinalW v s
  | .crUnkR ix => Sys2Proof.Machine.execCrUnkR ix s
  | .crUnkW ix v => Sys2Proof.Machine.execCrUnkW ix v s
  | .gcStdR ix => Sys2Proof.Machine.execGcStdR ix s
  | .gcStdW ix v => Sys2Proof.Machine.execGcStdW ix v s
  | .gcExtaR => Sys2Proof.Machine.execGcExtaR s
  | .gcExtaW v => Sys2Proof.Machine.execGcExtaW v s
  | .gcExtbR => Sys2Proof.Machine.execGcExtbR s
  | .gcExtbW v => Sys2Proof.Machine.execGcExtbW v s
  | .gcMiscR => Sys2Proof.Machine.execGcMiscR s
  | .gcMiscW v => Sys2Proof.Machine.execGcMiscW v s
  | .gcUnkR ix => Sys2Proof.Machine.execGcUnkR ix s
  | .gcUnkW ix v => Sys2Proof.Machine.execGcUnkW ix v s
  | .bankwR => Sys2Proof.Machine.execBankwR s
  | .bankwW v => Sys2Proof.Machine.execBankwW v s
  | .bankrR => Sys2Proof.Machine.execBankrR s
  | .bankrW v => Sys2Proof.Machine.execBankrW v s
  | .dacCmdR => Sys2Proof.Machine.execDacCmdR s
  | .dacCmdW v => Sys2Proof.Machine.execDacCmdW v s
  | .dacRstR r => Sys2Proof.Machine.execDacRstR r s
  | .dacRstW r v => Sys2Proof.Machine.execDacRstW r v s
  | .seqaIdxR => Sys2Proof.Machine.execSeqaIdxR s
  | .seqaIdxW v => Sys2Proof.Machine.execSeqaIdxW v s
  | .seqaDataR ix => Sys2Proof.Machine.execSeqaDataR ix s
  | .seqaDataW ix v => Sys2Proof.Machine.execSeqaDataW ix v s
  | .fbR o => Sys2Proof.Machine.execFbR o s
  | .fbW o v => Sys2Proof.Machine.execFbW o v s
  | .reset => Sys2Proof.Machine.execReset s

end Sys2Proof.Machine
end

