-- ==== Sys2Proof/Machine/Fetch.lean ====
section
/-! DEFINITION. From a pending host event to a key: the idx byte the decoder fills in (30_encoding.md R72), the start of a transaction, the
host's own actions (00_scope.md R13), and the placing of a key as the next transaction. -/

namespace Sys2Proof.Machine

/-- The idx byte of a port access (R72): the host's index register of the group the port belongs to, else 0. -/
def idxOf (P : Params) (h : HostSide) (p : Port) : Byte :=
  match portClass P h.misc p with
  | .seqData | .seqAliasData => h.seqIndex
  | .crtcData => h.crtcIndex
  | .gcData => h.gcIndex
  | .seqAliasIndex | .bankW | .bankR | .dacCmd | .dacRst _ | .pass => 0

/-- A request names a port when its kind is 000 or 001 (R70). -/
def isPortRequest (r : BusRequest) : Bool := r.kind = 0 || r.kind = 1

/-- The port of a request. -/
def requestPort (r : BusRequest) : Port := r.addr.extractLsb' 0 16

/-- The key of a request at this moment (R70, R72). -/
def requestKey (P : Params) (h : HostSide) (r : BusRequest) : Key :=
  mkKey r.kind r.zero r.addr (if isPortRequest r then idxOf P h (requestPort r) else 0) r.data

/-- The state in which a request's transaction runs: the request taken off the pending list, its answer at hand. -/
def State.begin (s : State) (r : BusRequest) (rest : List HostEvent) : State :=
  { s with answer := r.answer, pending := rest }

/-- A host action between transactions (R13, R35, R60, R79): it changes the host's side only. A byte outside the video memory does not
exist, so writing one changes nothing. -/
def hostAction (P : Params) (h : HostSide) : HostEvent → HostSide
  | .access _ => h
  | .setSeqIndex v => { h with seqIndex := v }
  | .setCrtcIndex v => { h with crtcIndex := v }
  | .setGcIndex v => { h with gcIndex := v }
  | .setMisc v => { h with misc := v }
  | .setStartAddr n => { h with startAddr := n }
  | .setVram a v => if a < P.vramSize then { h with vram := h.vram.write a v } else h

/-- The request that a key's bus fields make (R70), with no answer of the host's. -/
def keyRequest (k : Key) : BusRequest :=
  { kind := keyKind k, zero := keyZero k, addr := keyAddr k, data := keyData k, answer := none }

/-- The host's side with the index register of the port's group set to `i`, so that the idx byte the decoder fills in is `i` (R72). -/
def withIdx (P : Params) (h : HostSide) (p : Port) (i : Byte) : HostSide :=
  match portClass P h.misc p with
  | .seqData | .seqAliasData => { h with seqIndex := i }
  | .crtcData => { h with crtcIndex := i }
  | .gcData => { h with gcIndex := i }
  | .seqAliasIndex | .bankW | .bankR | .dacCmd | .dacRst _ | .pass => h

/-- The state whose next transaction is the one key `k` spells: its request first in the pending list and, for an access to a group data
port, the group's index register holding the key's idx byte (log 13). -/
def State.withNextKey (s : State) (k : Key) : State :=
  { s with
    host := if isPortRequest (keyRequest k) then withIdx s.params s.host (keyPort k) (keyIdx k) else s.host
    pending := .access (keyRequest k) :: s.pending }

end Sys2Proof.Machine
end

