-- ==== Sys2Proof/Machine/Step.lean ====
section
/-! DEFINITION. One step (00_scope.md R5, 60_exceptions.md R233, R236): the next pending event of the host. -/

namespace Sys2Proof.Machine

/-- One step. An illegal parameter set is refused (R236). With nothing pending the block does nothing: it "has no step of its own" (R13,
R21; log 1). A transaction's key is put together and decoded at this moment (R72, R74); a reserved key is refused before any effect
(R233); an operation runs to completion (R55). A host action changes the host's side only. -/
def step (s : State) : Host.Outcome State Fault Refusal :=
  if paramsLegal s.params then
    match s.pending with
    | [] => .next s
    | .access r :: rest =>
      match decodeKey s.params s.host.misc (requestKey s.params s.host r) with
      | .op i => exec i (s.begin r rest)
      | .reserved why => .refused (.reservedKey why)
    | e :: rest => .next { s with host := hostAction s.params s.host e, pending := rest }
  else .refused .illegalParameters

/-- `s` with the transaction whose key is the lowest `nbits` bits of `w` as its next one (log 13). -/
def State.withFetchWord (s : State) (nbits w : Nat) : State :=
  s.withNextKey (BitVec.ofNat 40 (w % 2 ^ nbits))

end Sys2Proof.Machine
end

