-- ==== Sys2Proof/Safety.lean ====
section
/-! DEFINITION. The terms claims use: the invariant of the states a device can be in, the classes of operations the spec's prose speaks of,
and runs of several operations. -/

namespace Sys2Proof.Machine

/-! ### The invariant -/

/-- The detector's invariant (R27): Idle ⇔ 0, Arming ⇔ 1 to 3, Active ⇔ 4. -/
abbrev detectorInv (c : Chip) : Prop :=
  (c.dacState = .idle ↔ c.dacCount = 0) ∧
  (c.dacState = .arming ↔ c.dacCount ∈ [1, 2, 3]) ∧
  (c.dacState = .active ↔ c.dacCount = 4)

/-- The aperture outputs are those of the stored control byte, and the address is below 2^26 (R30). -/
abbrev apertureInv (P : Params) (c : Chip) : Prop :=
  c.linAddr = (((c.crLinap &&& 0xC0).toNat <<< 18) ||| ((c.crLinap &&& 0x0F).toNat <<< 20)) ∧
  c.linAddr < 2 ^ 26 ∧
  c.linActive = c.crLinap.getLsbD P.laActiveBit.val ∧
  c.lin2mb = c.crLinap.getLsbD P.laSizeBit.val

/-- The MMIO and alternate-post flags are those of the stored bytes (R31, R32). -/
abbrev outputFlagsInv (P : Params) (c : Chip) : Prop :=
  c.mmioActive = c.crMmio.getLsbD P.mmioBit.val ∧ c.altPost = c.pum1.getLsbD P.pum1AltpostBit.val

/-- The number of depth flags that are true. -/
def depthFlags (c : Chip) : Nat := c.rgb8.toNat + c.rgb15.toNat + c.rgb16.toNat + c.rgb32.toNat

/-- At most one depth flag is true (R29, R182), and none while no decode pass has run since reset (R29, R39). -/
abbrev depthInv (c : Chip) : Prop :=
  depthFlags c ≤ 1 ∧ (c.pixelClock = none → depthFlags c = 0)

/-- Every byte store of the host's side is in canonical form and within its address space (R37, R9). -/
abbrev storageInv (P : Params) (h : HostSide) : Prop :=
  h.seqStd.wf ∧ h.crtcStd.wf ∧ h.gcStd.wf ∧ h.genMem.wf ∧ h.vram.wf ∧
  (∀ c ∈ h.seqStd, c.1 < 256) ∧ (∀ c ∈ h.crtcStd, c.1 < 256) ∧ (∀ c ∈ h.gcStd, c.1 < 256) ∧
  (∀ c ∈ h.genMem, c.1 ≤ 0x1FFFF) ∧ (∀ c ∈ h.vram, c.1 < P.vramSize)

/-- What holds of every state a device can be in. -/
abbrev DeviceInv (s : State) : Prop :=
  s.st.revision = s.params.revisionId ∧ detectorInv s.st ∧ apertureInv s.params s.st ∧
  outputFlagsInv s.params s.st ∧ depthInv s.st ∧ storageInv s.params s.host

/-! ### Classes of operations -/

/-- An access to one of the three DAC reset ports. -/
def isDacReset : Instr → Bool
  | .dacRstR _ | .dacRstW _ _ => true
  | _ => false

/-- An access to the DAC command port. -/
def isDacCommand : Instr → Bool
  | .dacCmdR | .dacCmdW _ => true
  | _ => false

/-- The reads: the operations whose transaction is a port read or a window read (R71). -/
def isRead : Instr → Bool
  | .passR _ | .seqStdR _ | .seqUnlockR | .seqPum1R | .seqMc2R | .seqMc1R | .seqPum2R | .seqUnkR _
  | .crStdR _ | .crModtestR | .crSwprogR | .crLinapR | .crStarthiR | .crOffextR | .crPixdepthR
  | .crMmioR | .crFinalR | .crUnkR _
  | .gcStdR _ | .gcExtaR | .gcExtbR | .gcMiscR | .gcUnkR _
  | .bankwR | .bankrR | .dacCmdR | .dacRstR _ | .seqaIdxR | .seqaDataR _ | .fbR _ => true
  | .passW _ _ | .seqStdW _ _ | .seqUnlockW _ | .seqPum1W _ | .seqMc2W _ | .seqMc1W _ | .seqPum2W _
  | .seqUnkW _ _ | .crStdW _ _ | .crModtestW _ | .crSwprogW _ | .crLinapW _ | .crStarthiW _
  | .crOffextW _ | .crPixdepthW _ | .crMmioW _ | .crFinalW _ | .crUnkW _ _
  | .gcStdW _ _ | .gcExtaW _ | .gcExtbW _ | .gcMiscW _ | .gcUnkW _ _
  | .bankwW _ | .bankrW _ | .dacCmdW _ | .dacRstW _ _ | .seqaIdxW _ | .seqaDataW _ _ | .fbW _ _
  | .reset => false

/-- An access that selects the mode-unlock index, directly or through the data alias (R111, R112, R109, R110). -/
def isUnlock (P : Params) : Instr → Bool
  | .seqUnlockR | .seqUnlockW _ => true
  | .seqaDataR i | .seqaDataW i _ => seqReg P i = .unlock
  | _ => false

/-- A write that runs the Mode Decoder in state `s` (R181). -/
def runsDecoder (s : State) : Instr → Bool
  | .crStdW _ _ | .crPixdepthW _ => true
  | .seqMc2W _ => s.st.newMode
  | .seqaDataW i _ => s.st.newMode && (seqReg s.params i == .mc2)
  | .dacCmdW _ => s.st.dacState == .active
  | _ => false

/-! ### One byte written -/

/-- Store `m'` is store `m` with byte `v` at address `a`, as reads see it: every other address reads as before, and `a` reads as `v`
(asked of a canonical store, which every store of a run is). -/
abbrev wroteByte (m m' : Memory) (a : Nat) (v : Byte) : Prop :=
  (∀ b, b ≠ a → m'.read b = m.read b) ∧ (m.wf → m'.read a = v)

/-! ### Rows -/

/-- Under a legal parameter set and the misc-output byte of `s`, key `k` spells operation `i`. -/
abbrev spells (s : State) (k : Key) (i : Instr) : Prop :=
  paramsLegal s.params = true → decodeKey s.params s.host.misc k = .op i

/-! ### Runs -/

/-- The operations of a list, one after the other; a fault or a refusal ends the run. -/
def execAll : List Instr → State → Outcome
  | [], s => .next s
  | i :: is, s =>
    match exec i s with
    | .next t => execAll is t
    | .fault r => .fault r
    | .refused r => .refused r

end Sys2Proof.Machine
end

