-- ==== Sys2Proof/Certificates/Slice0/Obligations.lean ====
section
/-! DEFINITION. The statements for the provers. Each docstring names the rules of spec/ a statement formalises; where a rule is marked in the
spec as the spec's own decision (D<n> of 92_eei_decisions.md) or inference, or a clause is the model's choice (log <n>), it says so. -/

open Sys2Proof Sys2Proof.Machine

/-! ### Encoding and decode -/

/-- Every operation's key decodes to that operation, with every operand at every value (30_encoding.md R70, R74 to R76; the key is the
spec's own construction, D44). -/
def Obligations.DecodeInvertsEncode : Prop :=
  ∀ (P : Params) (misc : Byte) (i : Instr), paramsLegal P = true → i.wf P misc = true →
    decodeKey P misc (encodeKey P misc i) = .op i

/-- Whatever a key decodes to meets its rule's operand conditions: a pass access names an unclaimed port, a standard access a standard
index, an unknown access an unknown one, and no operation of an unset OPEN port or index comes out (R74, R75, R236). -/
def Obligations.DecodedOperationIsWellFormed : Prop :=
  ∀ (P : Params) (misc : Byte) (k : Key) (i : Instr), decodeKey P misc k = .op i → i.wf P misc = true

/-- Decoding drops no field: the key of the decoded operation has the kind and the port or offset of the key read, its data byte if it
is a write, and its idx byte if the port is a group data port (R70, R72). RESET carries no field (log 12). -/
def Obligations.EncodeRecoversTheKey : Prop :=
  ∀ (P : Params) (misc : Byte) (k : Key) (i : Instr), decodeKey P misc k = .op i → i ≠ .reset →
    keyKind (encodeKey P misc i) = keyKind k ∧
    keyAddr (encodeKey P misc i) = keyAddr k ∧
    (keyKind k = 1 ∨ keyKind k = 3 → keyData (encodeKey P misc i) = keyData k) ∧
    (keyKind k = 0 ∨ keyKind k = 1 →
      (keyPort k = P.pSeqData ∨ some (keyPort k) = P.pSeqAliasData ∨
        portClass P misc (keyPort k) = .crtcData ∨ portClass P misc (keyPort k) = .gcData) →
      keyIdx (encodeKey P misc i) = keyIdx k)

/-- The reserved keys are exactly those of R77 (the spec's decision D44): kind 101 to 111, a bit of 36:33 set, or a port access with
bit 32 set. -/
def Obligations.ReservedKeysExactly : Prop :=
  ∀ (P : Params) (misc : Byte) (k : Key),
    (∃ why, decodeKey P misc k = .reserved why) ↔
      5 ≤ k.toNat / 2 ^ 37 ∨ k.toNat / 2 ^ 33 % 16 ≠ 0 ∨ (k.toNat / 2 ^ 37 < 2 ∧ k.toNat / 2 ^ 32 % 2 = 1)

/-- The group decoders (R75) at the three data ports, with the dispatch of R94, R95, R99, R100, R103 and R104: `w` chooses the write
row (kind 001) or the read row (kind 000), `i` is the idx byte, `v` the data byte. -/
def Obligations.GroupIndexSelectsRegister : Prop :=
  ∀ (P : Params) (misc : Byte) (w : Bool) (i v : Byte), paramsLegal P = true →
    let kind : BitVec 3 := if w then 1 else 0
    let seq := decodeKey P misc (mkKey kind 0 (ioAddr P.pSeqData) i v)
    let crtc := decodeKey P misc (mkKey kind 0 (ioAddr (crtcDataPort P misc)) i v)
    let gc := decodeKey P misc (mkKey kind 0 (ioAddr P.pGcData) i v)
    (i ≤ P.seqStdMax → seq = .op (if w then .seqStdW i v else .seqStdR i)) ∧
    (i = P.seqUnlock → seq = .op (if w then .seqUnlockW v else .seqUnlockR)) ∧
    (i = P.seqPum1 → seq = .op (if w then .seqPum1W v else .seqPum1R)) ∧
    (i = P.seqMc2 → seq = .op (if w then .seqMc2W v else .seqMc2R)) ∧
    (i = P.seqMc1 → seq = .op (if w then .seqMc1W v else .seqMc1R)) ∧
    (i = P.seqPum2 → seq = .op (if w then .seqPum2W v else .seqPum2R)) ∧
    (unknownIndex P.seqStdMax (seqNamed P) i → seq = .op (if w then .seqUnkW i v else .seqUnkR i)) ∧
    (i ≤ P.crtcStdMax → crtc = .op (if w then .crStdW i v else .crStdR i)) ∧
    (i = P.crModtest → crtc = .op (if w then .crModtestW v else .crModtestR)) ∧
    (i = P.crSwprog → crtc = .op (if w then .crSwprogW v else .crSwprogR)) ∧
    (i = P.crLinap → crtc = .op (if w then .crLinapW v else .crLinapR)) ∧
    (i = P.crStarthi → crtc = .op (if w then .crStarthiW v else .crStarthiR)) ∧
    (i = P.crOffext → crtc = .op (if w then .crOffextW v else .crOffextR)) ∧
    (i = P.crPixdepth → crtc = .op (if w then .crPixdepthW v else .crPixdepthR)) ∧
    (i = P.crMmio → crtc = .op (if w then .crMmioW v else .crMmioR)) ∧
    (some i = P.crFinal → crtc = .op (if w then .crFinalW v else .crFinalR)) ∧
    (unknownIndex P.crtcStdMax (crtcNamed P) i → crtc = .op (if w then .crUnkW i v else .crUnkR i)) ∧
    (i ≤ P.gcStdMax → gc = .op (if w then .gcStdW i v else .gcStdR i)) ∧
    (i = P.gcExta → gc = .op (if w then .gcExtaW v else .gcExtaR)) ∧
    (i = P.gcExtb → gc = .op (if w then .gcExtbW v else .gcExtbR)) ∧
    (i = P.gcMisc → gc = .op (if w then .gcMiscW v else .gcMiscR)) ∧
    (unknownIndex P.gcStdMax (gcNamed P) i → gc = .op (if w then .gcUnkW i v else .gcUnkR i))

/-- The idx byte of a port access is the host's index register of the port's group at that moment, and 0 at every other port (R72). -/
def Obligations.IndexByteComesFromTheHost : Prop :=
  ∀ (P : Params) (h : HostSide) (r : BusRequest), paramsLegal P = true → r.kind = 0 ∨ r.kind = 1 →
    let p := requestPort r
    let idx := keyIdx (requestKey P h r)
    (p = P.pSeqData ∨ some p = P.pSeqAliasData → idx = h.seqIndex) ∧
    (p = crtcDataPort P h.misc → idx = h.crtcIndex) ∧
    (p = P.pGcData → idx = h.gcIndex) ∧
    (p ≠ P.pSeqData → some p ≠ P.pSeqAliasData → p ≠ crtcDataPort P h.misc → p ≠ P.pGcData → idx = 0)

/-- The misc-output byte reaches the decode of a key through the base-select bit alone (R78, R91; which bit it is, is the spec's
parameter, D35). -/
def Obligations.OnlyTheBaseBitMovesDecode : Prop :=
  ∀ (P : Params) (m m' : Byte) (k : Key), m.getLsbD P.miscIoasBit.val = m'.getLsbD P.miscIoasBit.val →
    decodeKey P m k = decodeKey P m' k

/-- Keys written out from R70 and R76 under the default parameters decode to the operations they stand for (the spec's vectors of
95_test_vectors.md section 2.1). -/
def Obligations.SampleKeysDecode : Prop :=
  decodeKey Params.default 0x01 0x2003C50E05 = .op (.seqMc1W 0x05) ∧
  decodeKey Params.default 0x01 0x0003C50400 = .op (.seqStdR 0x04) ∧
  decodeKey Params.default 0x01 0x0003C50500 = .op (.seqUnkR 0x05) ∧
  decodeKey Params.default 0x01 0x2003D53804 = .op (.crPixdepthW 0x04) ∧
  decodeKey Params.default 0x00 0x0003D53800 = .op (.passR 0x3D5) ∧
  decodeKey Params.default 0x00 0x0003B53800 = .op .crPixdepthR ∧
  decodeKey Params.default 0x01 0x2003CF0F05 = .op (.gcExtbW 0x05) ∧
  decodeKey Params.default 0x01 0x2003D90005 = .op (.bankrW 0x05) ∧
  decodeKey Params.default 0x01 0x2003C60030 = .op (.dacCmdW 0x30) ∧
  decodeKey Params.default 0x01 0x61234500AA = .op (.fbW 0x12345 0xAA) ∧
  decodeKey Params.default 0x01 0x8000000000 = .op .reset ∧
  decodeKey Params.default 0x01 0xA000000000 = .reserved .kind ∧
  decodeKey Params.default 0x01 0x0200000000 = .reserved .zeroBits ∧
  decodeKey Params.default 0x01 0x0103C50000 = .reserved .ioAddressBit

/-! ### The step -/

/-- A step with a transaction at the head of the pending list whose key decodes to an operation runs that operation, on the state with the
request taken off the list and the host's answer at hand (R5, R72, R74; the pending list is the model's, logs 1 and 6). -/
def Obligations.StepRunsTheDecodedOperation : Prop :=
  ∀ (s : State) (r : BusRequest) (rest : List HostEvent) (i : Instr),
    paramsLegal s.params = true → s.pending = .access r :: rest →
    decodeKey s.params s.host.misc (requestKey s.params s.host r) = .op i →
    step s = exec i { s with answer := r.answer, pending := rest }

/-- A key placed as the next transaction is the one the next step runs, with the host's index register set so that the idx byte the decoder
fills in is the key's (R72; log 13). -/
def Obligations.PlacedKeyIsRunNext : Prop :=
  ∀ (s : State) (k : Key) (i : Instr),
    paramsLegal s.params = true → decodeKey s.params s.host.misc k = .op i →
    step (s.withNextKey k) = exec i { s with host := (s.withNextKey k).host, answer := none } ∧
    (∃ a b c, (s.withNextKey k).host = { s.host with seqIndex := a, crtcIndex := b, gcIndex := c })

/-- A step is refused exactly when the parameter set is illegal or the next transaction's key is reserved (R236, the spec's decision
D36; log 9 says which parameter sets are illegal). -/
def Obligations.StepRefusesExactly : Prop :=
  ∀ (s : State) (x : Refusal),
    step s = .refused x ↔
      (paramsLegal s.params = false ∧ x = .illegalParameters) ∨
      (paramsLegal s.params = true ∧ ∃ r rest why, s.pending = .access r :: rest ∧
        decodeKey s.params s.host.misc (requestKey s.params s.host r) = .reserved why ∧ x = .reservedKey why)

/-- Only transactions change the chip state, and framebuffer accesses leave it alone (R21): with nothing pending, or with an action of the
host's next, a step leaves `st`, the timing history and the call history alone (that these are steps at all, and that the idle one changes
nothing, is the model's choice, log 1); a framebuffer read changes nothing of the chip or the timing history, and a framebuffer write only
the host's memory (that the host's generic handler changes nothing else of the host's side is the stand-in's choice, D40, log 5). -/
def Obligations.OnlyTransactionsChangeTheChip : Prop :=
  (∀ s : State, paramsLegal s.params = true → s.pending = [] → step s = .next s) ∧
  (∀ (s t : State) (e : HostEvent) (rest : List HostEvent), s.pending = e :: rest → (∀ r, e ≠ .access r) →
    step s = .next t →
    t.st = s.st ∧ t.tlog = s.tlog ∧ t.calls = s.calls ∧ t.params = s.params ∧ t.pending = rest) ∧
  (∀ (s t : State) (o : Offset), exec (.fbR o) s = .next t →
    t.st = s.st ∧ t.host = s.host ∧ t.tlog = s.tlog) ∧
  (∀ (s t : State) (o : Offset) (v : Byte), exec (.fbW o v) s = .next t →
    t.st = s.st ∧ t.tlog = s.tlog ∧
    t.host = { s.host with vram := t.host.vram, genMem := t.host.genMem })

/-! ### Passthrough and standard registers -/

/-- A write of an unclaimed port is one call of the host's port handler; `st` and the timing history stay as they are, so no Decode() runs
(R93). Of the host's side a write of an index port sets that index register and nothing else, and a write of any other port changes nothing
(the stand-in's choice, D40, log 5; R93's example is the sequencer index port). -/
def Obligations.UnclaimedPortWrite : Prop :=
  ∀ (s : State) (p : Port) (v : Byte),
    (p ∉ claimedPorts s.params s.host.misc → spells s (ioWriteKey p 0 v) (.passW p v)) ∧
    ∃ h : HostSide,
      exec (.passW p v) s = .next { s with host := h, calls := s.calls ++ [.portWrite p v], result := none } ∧
      (p = s.params.pSeqIndex → h = { s.host with seqIndex := v }) ∧
      (p ≠ s.params.pSeqIndex → p = s.params.pGcIndex → h = { s.host with gcIndex := v }) ∧
      (p ≠ s.params.pSeqIndex → p ≠ s.params.pGcIndex →
        p = crtcIndexPort s.params s.host.misc → h = { s.host with crtcIndex := v }) ∧
      (p ≠ s.params.pSeqIndex → p ≠ s.params.pGcIndex →
        p ≠ crtcIndexPort s.params s.host.misc → h = s.host)

/-- A read of an unclaimed port is one call of the host's port handler, whose answer is the result (R92); a host that gives no answer with the
transaction answers its index register at an index port, and 0xFF elsewhere (the stand-in D40, logs 5 and 6). -/
def Obligations.UnclaimedPortRead : Prop :=
  ∀ (s : State) (p : Port),
    (p ∉ claimedPorts s.params s.host.misc → spells s (ioReadKey p 0) (.passR p)) ∧
    ∃ b : Byte,
      exec (.passR p) s = .next { s with calls := s.calls ++ [.portRead p], result := some b } ∧
      (∀ a, s.answer = some a → b = a) ∧
      (s.answer = none → p = s.params.pSeqIndex → b = s.host.seqIndex) ∧
      (s.answer = none → p ≠ s.params.pSeqIndex → p ≠ s.params.pGcIndex →
        p = crtcIndexPort s.params s.host.misc → b = s.host.crtcIndex) ∧
      (s.answer = none → p ≠ s.params.pSeqIndex → p = s.params.pGcIndex → b = s.host.gcIndex) ∧
      (s.answer = none → p ≠ s.params.pSeqIndex → p ≠ s.params.pGcIndex →
        p ≠ crtcIndexPort s.params s.host.misc → b = 0xFF)

/-- A read at a standard index of a group is one call of the host's standard handler of that group at that index, whose answer is the result,
and `st` is unchanged (R97, R101, R105); that the handler changes nothing of the host's side either is the stand-in's choice (R53 leaves it open; D40,
log 5). -/
def Obligations.StandardRegisterReads : Prop :=
  ∀ (s : State) (i : Byte),
    (i ≤ s.params.seqStdMax → spells s (ioReadKey s.params.pSeqData i) (.seqStdR i)) ∧
    (i ≤ s.params.crtcStdMax → spells s (ioReadKey (crtcDataPort s.params s.host.misc) i) (.crStdR i)) ∧
    (i ≤ s.params.gcStdMax → spells s (ioReadKey s.params.pGcData i) (.gcStdR i)) ∧
    ∃ a b c : Byte,
      exec (.seqStdR i) s = .next { s with calls := s.calls ++ [.stdRead .seq i], result := some a } ∧
      exec (.crStdR i) s = .next { s with calls := s.calls ++ [.stdRead .crtc i], result := some b } ∧
      exec (.gcStdR i) s = .next { s with calls := s.calls ++ [.stdRead .gc i], result := some c } ∧
      (∀ x, s.answer = some x → a = x ∧ b = x ∧ c = x)

/-- A write at a standard index is one call of the host's standard handler of that group; the stand-in stores the byte (D40, log 5) and nothing
else of the host's changes. A CRTC write then runs Decode(); a sequencer or graphics-controller write does not (R98, R102, R106; the
spec's decision D33). -/
def Obligations.StandardRegisterWrites : Prop :=
  ∀ (s : State) (i v : Byte),
    (∃ m, exec (.seqStdW i v) s = .next { s with
        host := { s.host with seqStd := m }, calls := s.calls ++ [.stdWrite .seq i v], result := none } ∧
      wroteByte s.host.seqStd m i.toNat v) ∧
    (∃ m, exec (.crStdW i v) s = .next { modeDecode s with
        host := { s.host with crtcStd := m }, calls := s.calls ++ [.stdWrite .crtc i v], result := none } ∧
      wroteByte s.host.crtcStd m i.toNat v) ∧
    (∃ m, exec (.gcStdW i v) s = .next { s with
        host := { s.host with gcStd := m }, calls := s.calls ++ [.stdWrite .gc i v], result := none } ∧
      wroteByte s.host.gcStd m i.toNat v)

/-! ### Register cells -/

/-- A read of a sequencer cell returns the stored byte, of a dual register the cell the mode flag selects, and changes nothing but the result
(R113, R115, R119, and the read of R117). -/
def Obligations.SequencerCellReads : Prop :=
  ∀ s : State,
    spells s (ioReadKey s.params.pSeqData s.params.seqPum1) .seqPum1R ∧
    exec .seqPum1R s = .next { s with result := some s.st.pum1 } ∧
    spells s (ioReadKey s.params.pSeqData s.params.seqMc2) .seqMc2R ∧
    (s.st.newMode = false → exec .seqMc2R s = .next { s with result := some s.st.mc2Old }) ∧
    (s.st.newMode = true → exec .seqMc2R s = .next { s with result := some s.st.mc2New }) ∧
    spells s (ioReadKey s.params.pSeqData s.params.seqMc1) .seqMc1R ∧
    (s.st.newMode = false → exec .seqMc1R s = .next { s with result := some s.st.mc1Old }) ∧
    (s.st.newMode = true → exec .seqMc1R s = .next { s with result := some s.st.mc1New }) ∧
    spells s (ioReadKey s.params.pSeqData s.params.seqPum2) .seqPum2R ∧
    exec .seqPum2R s = .next { s with result := some s.st.pum2 }

/-- A read of a CRTC cell returns the stored byte and changes nothing but the result (R130, R132, R134, R138, R140, R142, R144); while CR_FINAL is
unset no key is its read. -/
def Obligations.CrtcCellReads : Prop :=
  ∀ s : State,
    let p := crtcDataPort s.params s.host.misc
    spells s (ioReadKey p s.params.crModtest) .crModtestR ∧
    exec .crModtestR s = .next { s with result := some s.st.crModtest } ∧
    spells s (ioReadKey p s.params.crSwprog) .crSwprogR ∧
    exec .crSwprogR s = .next { s with result := some s.st.crSwprog } ∧
    spells s (ioReadKey p s.params.crLinap) .crLinapR ∧
    exec .crLinapR s = .next { s with result := some s.st.crLinap } ∧
    spells s (ioReadKey p s.params.crOffext) .crOffextR ∧
    exec .crOffextR s = .next { s with result := some s.st.crOffext } ∧
    spells s (ioReadKey p s.params.crPixdepth) .crPixdepthR ∧
    exec .crPixdepthR s = .next { s with result := some s.st.crPixdepth } ∧
    spells s (ioReadKey p s.params.crMmio) .crMmioR ∧
    exec .crMmioR s = .next { s with result := some s.st.crMmio } ∧
    (∀ f, s.params.crFinal = some f → spells s (ioReadKey p f) .crFinalR) ∧
    (s.params.crFinal = none → ∀ k, decodeKey s.params s.host.misc k ≠ .op .crFinalR) ∧
    exec .crFinalR s = .next { s with result := some s.st.crFinal }

/-- A read of a graphics-controller cell returns the stored byte and changes nothing but the result (R160, R162, R164). -/
def Obligations.GcCellReads : Prop :=
  ∀ s : State,
    spells s (ioReadKey s.params.pGcData s.params.gcExta) .gcExtaR ∧
    exec .gcExtaR s = .next { s with result := some s.st.gcExta } ∧
    spells s (ioReadKey s.params.pGcData s.params.gcExtb) .gcExtbR ∧
    exec .gcExtbR s = .next { s with result := some s.st.gcExtb } ∧
    spells s (ioReadKey s.params.pGcData s.params.gcMisc) .gcMiscR ∧
    exec .gcMiscR s = .next { s with result := some s.st.gcMisc }

/-- A write of a storage-only cell stores the byte there and changes nothing else: no flag, no bank (also for extension register B, R26), no
Decode() (R120, R131, R133, R139, R145, R163, R165; the spec's decisions D19, D25, D41). -/
def Obligations.StorageOnlyWrites : Prop :=
  ∀ (s : State) (v : Byte),
    exec (.seqPum2W v) s = .next { s with st := { s.st with pum2 := v }, result := none } ∧
    exec (.crModtestW v) s = .next { s with st := { s.st with crModtest := v }, result := none } ∧
    exec (.crSwprogW v) s = .next { s with st := { s.st with crSwprog := v }, result := none } ∧
    exec (.crOffextW v) s = .next { s with st := { s.st with crOffext := v }, result := none } ∧
    exec (.crFinalW v) s = .next { s with st := { s.st with crFinal := v }, result := none } ∧
    exec (.gcExtbW v) s = .next { s with st := { s.st with gcExtb := v }, result := none } ∧
    exec (.gcMiscW v) s = .next { s with st := { s.st with gcMisc := v }, result := none }

/-- An unknown chip-specific index of any group reads 0xFF, and a write there does nothing; no state changes, no host handler is called and no
Decode() runs (R121, R122, R146, R147, R166, R167). -/
def Obligations.UnknownIndexAccesses : Prop :=
  ∀ (s : State) (i v : Byte),
    (unknownIndex s.params.seqStdMax (seqNamed s.params) i →
      spells s (ioReadKey s.params.pSeqData i) (.seqUnkR i) ∧
      spells s (ioWriteKey s.params.pSeqData i v) (.seqUnkW i v)) ∧
    (unknownIndex s.params.crtcStdMax (crtcNamed s.params) i →
      spells s (ioReadKey (crtcDataPort s.params s.host.misc) i) (.crUnkR i) ∧
      spells s (ioWriteKey (crtcDataPort s.params s.host.misc) i v) (.crUnkW i v)) ∧
    (unknownIndex s.params.gcStdMax (gcNamed s.params) i →
      spells s (ioReadKey s.params.pGcData i) (.gcUnkR i) ∧
      spells s (ioWriteKey s.params.pGcData i v) (.gcUnkW i v)) ∧
    exec (.seqUnkR i) s = .next { s with result := some 0xFF } ∧
    exec (.crUnkR i) s = .next { s with result := some 0xFF } ∧
    exec (.gcUnkR i) s = .next { s with result := some 0xFF } ∧
    exec (.seqUnkW i v) s = .next { s with result := none } ∧
    exec (.crUnkW i v) s = .next { s with result := none } ∧
    exec (.gcUnkW i v) s = .next { s with result := none }

/-- A read of the unlock index returns the revision byte and selects new mode; a write of any byte selects old mode; nothing else changes
(R111, R112: the spec's decision D8). -/
def Obligations.UnlockSelectsTheMode : Prop :=
  ∀ (s : State) (v : Byte),
    exec .seqUnlockR s =
      .next { s with st := { s.st with newMode := true }, result := some s.st.revision } ∧
    exec (.seqUnlockW v) s = .next { s with st := { s.st with newMode := false }, result := none }

/-- A write of power-up-mode register 1 or of the MMIO-enable register stores the byte and sets its flag from the flag's bit (R114, R143: the
spec's decisions D27, D26). -/
def Obligations.PowerUpAndMmioWrites : Prop :=
  ∀ (s : State) (v : Byte),
    exec (.seqPum1W v) s = .next { s with
      st := { s.st with pum1 := v, altPost := v.getLsbD s.params.pum1AltpostBit.val }, result := none } ∧
    exec (.crMmioW v) s = .next { s with
      st := { s.st with crMmio := v, mmioActive := v.getLsbD s.params.mmioBit.val }, result := none }

/-- A write of the linear-aperture control register stores the byte and sets the address, active and size outputs (R135: the flag bits are the
spec's decision D23). The address is given by its four-bit and two-bit parts, each at its place. -/
def Obligations.LinearApertureWrite : Prop :=
  ∀ (s : State) (v : Byte),
    exec (.crLinapW v) s = .next { s with
      st := { s.st with
        crLinap := v
        linAddr := v.toNat / 64 * 2 ^ 24 + v.toNat % 16 * 2 ^ 20
        linActive := v.getLsbD s.params.laActiveBit.val
        lin2mb := v.getLsbD s.params.laSizeBit.val }
      result := none }

/-- A write of mode-control-2: in old mode the old cell alone; in new mode the new cell and the latched clock index, then Decode() (R116, R177:
the bit order and the latch point are the spec's decisions D11, D12). The index is given as a number from its four bits. -/
def Obligations.ModeControl2Write : Prop :=
  ∀ (s : State) (v : Byte),
    (s.st.newMode = false →
      exec (.seqMc2W v) s = .next { s with st := { s.st with mc2Old := v }, result := none }) ∧
    (s.st.newMode = true → ∃ idx : BitVec 4,
      exec (.seqMc2W v) s =
        .next { modeDecode { s with st := { s.st with mc2New := v, clockIdx := idx } } with result := none } ∧
      idx.toNat = s.host.misc.toNat / 2 ^ s.params.miscCsLo.val % 4
        + 4 * (v.getLsbD s.params.mc2Cs2Bit.val).toNat + 8 * (v.getLsbD s.params.mc2Cs3Bit.val).toNat)

/-- A write of mode-control-1: in old mode the old cell gets the byte and the write bank its low five bits; in new mode the new cell gets the byte
with bit 1 inverted and the write bank its low five bits with bit 1 inverted; the read bank follows unless the separated bit is set (R118; that
the cells store all eight bits is the spec's decision D39). -/
def Obligations.ModeControl1Write : Prop :=
  ∀ (s : State) (v : Byte),
    let follow (b : BitVec 5) : BitVec 5 := if s.st.gcExtb.getLsbD s.params.gcbSepBit.val then s.st.bankR else b
    (s.st.newMode = false → ∃ b : BitVec 5,
      exec (.seqMc1W v) s = .next { s with
        st := { s.st with mc1Old := v, bankW := b, bankR := follow b }, result := none } ∧
      b.zeroExtend 8 = v &&& 0x1F) ∧
    (s.st.newMode = true → ∃ b : BitVec 5,
      exec (.seqMc1W v) s = .next { s with
        st := { s.st with mc1New := v ^^^ 0x02, bankW := b, bankR := follow b }, result := none } ∧
      b.zeroExtend 8 = (v &&& 0x1F) ^^^ 0x02)

/-- The start-address high bits are bits 18:17 of the host's start address, in bits 1:0 of the result; a write there does nothing (R136, R137:
the upper bits are the spec's inference and the write its decision D24). -/
def Obligations.StartAddressHighBits : Prop :=
  ∀ (s : State) (v : Byte),
    (∃ b : Byte, exec .crStarthiR s = .next { s with result := some b } ∧
      b.toNat = s.host.startAddr / 2 ^ 17 % 4) ∧
    exec (.crStarthiW v) s = .next { s with result := none }

/-- A write of the pixel-depth register stores the byte and runs Decode() (R141: the spec's decisions D14, D33). -/
def Obligations.PixelDepthWrite : Prop :=
  ∀ (s : State) (v : Byte),
    exec (.crPixdepthW v) s =
      .next { modeDecode { s with st := { s.st with crPixdepth := v } } with result := none }

/-- A write of extension register A stores the byte and, while the separated bit is set, its low five bits in the read bank (R161: the spec's
decisions D6, D19). -/
def Obligations.ExtensionAWrite : Prop :=
  ∀ (s : State) (v : Byte),
    (s.st.gcExtb.getLsbD s.params.gcbSepBit.val = false →
      exec (.gcExtaW v) s = .next { s with st := { s.st with gcExta := v }, result := none }) ∧
    (s.st.gcExtb.getLsbD s.params.gcbSepBit.val = true → ∃ b : BitVec 5,
      exec (.gcExtaW v) s = .next { s with st := { s.st with gcExta := v, bankR := b }, result := none } ∧
      b.toNat = v.toNat % 32)

/-! ### Bank-alias ports -/

/-- The write-bank alias port reads the write bank, zero-extended, while the enabled bit is set, and 0xFF otherwise, whatever the separated bit; under
the defaults its key is 0x0003D80000 (R191). -/
def Obligations.WriteBankPortRead : Prop :=
  (∀ s : State,
    spells s (ioReadKey (bankWPort s.params s.host.misc) 0) .bankwR ∧
    (s.st.gcExtb.getLsbD s.params.gcbEnBit.val = true → ∃ b : Byte,
      exec .bankwR s = .next { s with result := some b } ∧ b.toNat = s.st.bankW.toNat) ∧
    (s.st.gcExtb.getLsbD s.params.gcbEnBit.val = false →
      exec .bankwR s = .next { s with result := some 0xFF })) ∧
  encodeKey Params.default 0x01 .bankwR = 0x0003D80000

/-- The other bank-alias accesses: the write-bank port sets the write bank while enabled (and the read bank unless separated); the read-bank port reads
and sets the read bank while enabled and separated; otherwise a read gives 0xFF and a write does nothing. No register cell changes (R192 to R194: the
spec's decisions D21, D22). -/
def Obligations.BankPortAccesses : Prop :=
  ∀ (s : State) (v : Byte),
    let en := s.st.gcExtb.getLsbD s.params.gcbEnBit.val
    let sep := s.st.gcExtb.getLsbD s.params.gcbSepBit.val
    ∃ b : BitVec 5, b.toNat = v.toNat % 32 ∧
    (en = false → exec (.bankwW v) s = .next { s with result := none }) ∧
    (en = true → sep = false →
      exec (.bankwW v) s = .next { s with st := { s.st with bankW := b, bankR := b }, result := none }) ∧
    (en = true → sep = true →
      exec (.bankwW v) s = .next { s with st := { s.st with bankW := b }, result := none }) ∧
    (en = true → sep = true → ∃ x : Byte,
      exec .bankrR s = .next { s with result := some x } ∧ x.toNat = s.st.bankR.toNat) ∧
    (en = false ∨ sep = false → exec .bankrR s = .next { s with result := some 0xFF }) ∧
    (en = true → sep = true →
      exec (.bankrW v) s = .next { s with st := { s.st with bankR := b }, result := none }) ∧
    (en = false ∨ sep = false → exec (.bankrW v) s = .next { s with result := none })

/-! ### The DAC Passthrough Detector -/

/-- A read of the command port: while Active it returns the command byte and changes nothing else; otherwise it counts, the fourth access making the
detector Active, and is one call of the host's port handler, whose answer is the result (R211); that the handler changes nothing of the host's side is the stand-in's
choice (R53 leaves it open; D40, log 5). -/
def Obligations.DacCommandRead : Prop :=
  (∀ s : State,
    spells s (ioReadKey s.params.pDacCmd 0) .dacCmdR ∧
    (s.st.dacState = .active → exec .dacCmdR s = .next { s with result := some s.st.dacCmd }) ∧
    (s.st.dacState ≠ .active → ∃ b : Byte,
      exec .dacCmdR s = .next { s with
        st := { s.st with
          dacCount := s.st.dacCount + 1
          dacState := if s.st.dacCount + 1 = 4 then .active else .arming }
        calls := s.calls ++ [.portRead s.params.pDacCmd]
        result := some b } ∧
      (∀ a, s.answer = some a → b = a))) ∧
  encodeKey Params.default 0x01 .dacCmdR = 0x0003C60000

/-- A write of the command port: while Active it latches the command byte, returns the detector to Idle, runs Decode() and calls no host handler;
otherwise it counts as a read does and is one call of the host's port handler (R212), which touches no memory (the stand-in's choice, D40,
log 5). -/
def Obligations.DacCommandWrite : Prop :=
  ∀ (s : State) (v : Byte),
    spells s (ioWriteKey s.params.pDacCmd 0 v) (.dacCmdW v) ∧
    (s.st.dacState = .active →
      exec (.dacCmdW v) s = .next { modeDecode { s with
        st := { s.st with dacCmd := v, dacCount := 0, dacState := .idle } } with result := none }) ∧
    (s.st.dacState ≠ .active → ∃ h : HostSide,
      exec (.dacCmdW v) s = .next { s with
        st := { s.st with
          dacCount := s.st.dacCount + 1
          dacState := if s.st.dacCount + 1 = 4 then .active else .arming }
        host := h
        calls := s.calls ++ [.portWrite s.params.pDacCmd v]
        result := none } ∧
      h.vram = s.host.vram ∧ h.genMem = s.host.genMem ∧ h.seqStd = s.host.seqStd ∧
      h.crtcStd = s.host.crtcStd ∧ h.gcStd = s.host.gcStd)

/-- A read or write of any of the three reset ports returns the detector to Idle in every state, keeps the command byte, and is one call of the host's
port handler at that port (R213, R214), which touches no memory (the stand-in's choice, D40, log 5). -/
def Obligations.DacResetPorts : Prop :=
  ∀ (s : State) (r : DacReset) (v : Byte),
    let p := match r with
      | .rst0 => s.params.pDacRst0
      | .rst1 => s.params.pDacRst1
      | .rst2 => s.params.pDacRst2
    spells s (ioReadKey p 0) (.dacRstR r) ∧
    spells s (ioWriteKey p 0 v) (.dacRstW r v) ∧
    (∃ b : Byte,
      exec (.dacRstR r) s = .next { s with
        st := { s.st with dacCount := 0, dacState := .idle }
        calls := s.calls ++ [.portRead p]
        result := some b } ∧
      (∀ a, s.answer = some a → b = a)) ∧
    (∃ h : HostSide,
      exec (.dacRstW r v) s = .next { s with
        st := { s.st with dacCount := 0, dacState := .idle }
        host := h
        calls := s.calls ++ [.portWrite p v]
        result := none } ∧
      h.vram = s.host.vram ∧ h.genMem = s.host.genMem ∧ h.seqStd = s.host.seqStd ∧
      h.crtcStd = s.host.crtcStd ∧ h.gcStd = s.host.gcStd)

/-! ### The sequencer alias ports -/

/-- The index alias reads and writes the host's sequencer index port (a write makes the byte the host's sequencer index and a read without an answer
returns it, by the stand-in's choice, D40, logs 5 and 6), and
the data alias does what the sequencer data port does at the same index: the operation that the data port's key spells, on the same state (R107 to
R110: the spec's decision D38). -/
def Obligations.SequencerAliasPorts : Prop :=
  ∀ (s : State) (i v : Byte),
    (∀ q, s.params.pSeqAliasIndex = some q →
      spells s (ioReadKey q 0) .seqaIdxR ∧ spells s (ioWriteKey q 0 v) (.seqaIdxW v)) ∧
    (∀ q, s.params.pSeqAliasData = some q →
      spells s (ioReadKey q i) (.seqaDataR i) ∧ spells s (ioWriteKey q i v) (.seqaDataW i v)) ∧
    (∃ b : Byte,
      exec .seqaIdxR s = .next { s with
        calls := s.calls ++ [.portRead s.params.pSeqIndex], result := some b } ∧
      (∀ a, s.answer = some a → b = a) ∧ (s.answer = none → b = s.host.seqIndex)) ∧
    exec (.seqaIdxW v) s = .next { s with
      host := { s.host with seqIndex := v }
      calls := s.calls ++ [.portWrite s.params.pSeqIndex v]
      result := none } ∧
    (∃ j t, decodeKey s.params s.host.misc (ioReadKey s.params.pSeqData i) = .op j ∧
      exec (.seqaDataR i) s = exec j s ∧ exec (.seqaDataR i) s = .next t ∧ t.result.isSome) ∧
    (∃ j t, decodeKey s.params s.host.misc (ioWriteKey s.params.pSeqData i v) = .op j ∧
      exec (.seqaDataW i v) s = exec j s ∧ exec (.seqaDataW i v) s = .next t ∧ t.result = none)

/-! ### The framebuffer window -/

/-- A framebuffer read: while a depth flag is asserted it returns the byte of video memory at the banked offset of the read bank and changes nothing
else; otherwise it is one call of the host's generic handler, whose answer is the result (R200, R201: that each of the four depth flags, 8bpp too,
makes the access banked is the spec's decision D16); that the handler changes nothing of the host's side is the stand-in's choice (R53 leaves it open;
D40, log 5). -/
def Obligations.FramebufferRead : Prop :=
  ∀ (s : State) (o : Offset),
    let on := s.st.rgb8 || s.st.rgb15 || s.st.rgb16 || s.st.rgb32
    let o2 := if s.st.newMode then o.toNat % 65536 else o.toNat
    spells s (mkKey 2 0 o 0 0) (.fbR o) ∧
    (on = true → exec (.fbR o) s = .next { s with
      result := some (s.host.vram.read ((o2 + s.st.bankR.toNat * 65536) % s.params.vramSize)) }) ∧
    (on = false → ∃ b : Byte,
      exec (.fbR o) s = .next { s with calls := s.calls ++ [.memRead o], result := some b } ∧
      (∀ a, s.answer = some a → b = a))

/-- A framebuffer write: while a depth flag is asserted it stores the byte in video memory at the banked offset of the write bank, and every other byte
of every memory stays; otherwise it is one call of the host's generic handler, which leaves the video memory (R202); that the host's
memory then holds the byte is the stand-in's choice (D40, log 5). -/
def Obligations.FramebufferWrite : Prop :=
  ∀ (s : State) (o : Offset) (v : Byte),
    let on := s.st.rgb8 || s.st.rgb15 || s.st.rgb16 || s.st.rgb32
    let o2 := if s.st.newMode then o.toNat % 65536 else o.toNat
    spells s (mkKey 3 0 o 0 v) (.fbW o v) ∧
    effectiveOffset s.params s.st.newMode s.st.bankW o = (o2 + s.st.bankW.toNat * 65536) % s.params.vramSize ∧
    (on = true → ∃ m, exec (.fbW o v) s = .next { s with
        host := { s.host with vram := m }, result := none } ∧
      wroteByte s.host.vram m (effectiveOffset s.params s.st.newMode s.st.bankW o) v) ∧
    (on = false → ∃ m, exec (.fbW o v) s = .next { s with
        host := { s.host with genMem := m }, calls := s.calls ++ [.memWrite o v], result := none } ∧
      wroteByte s.host.genMem m o.toNat v)

/-- The banked offset is within video memory, nothing overflows before the modulo, and in new mode the two halves of the window are one (R204, R58, the
corner cases of R201: inferences of the spec). -/
def Obligations.BankedOffsetArithmetic : Prop :=
  ∀ (P : Params) (newMode : Bool) (bank : BitVec 5) (o : Offset), 0 < P.vramSize →
    effectiveOffset P newMode bank o < P.vramSize ∧
    windowOffset newMode o ≤ (if newMode then 0xFFFF else 0x1FFFF) ∧
    windowOffset newMode o + bank.toNat * 65536 ≤ 0x20FFFF ∧
    effectiveOffset P true bank (o ^^^ 0x10000) = effectiveOffset P true bank o

/-- A framebuffer read right after a framebuffer write returns the byte written: while banked, at every window offset that reaches the same storage
offset through the read bank (R60: an inference of the spec); while not banked, at the same window offset, if the host gives no other answer (this
half rests on the stand-in, logs 5 and 6). -/
def Obligations.FramebufferReadAfterWrite : Prop :=
  ∀ (s : State) (o o' : Offset) (v : Byte), storageInv s.params s.host →
    (banked s.st = true →
      effectiveOffset s.params s.st.newMode s.st.bankR o' = effectiveOffset s.params s.st.newMode s.st.bankW o) →
    (banked s.st = false → s.answer = none ∧ o' = o) →
    ∃ t u, exec (.fbW o v) s = .next t ∧ exec (.fbR o') t = .next u ∧ u.result = some v

/-! ### Reset -/

/-- The reset transaction puts every field of `st` at its reset value, the revision byte at REVISION_ID, and changes nothing else: not the timing history,
not the host's side, no host handler called (R250: the values are the spec's decisions D10, D31). -/
def Obligations.DeviceReset : Prop :=
  ∀ s : State,
    spells s 0x8000000000 .reset ∧
    exec .reset s = .next { s with
      st := { State.reset.st with revision := s.params.revisionId }, result := none }

/-- The chip state right after reset, field by field (R39: the re-seeded values are the spec's decisions D10, D31). -/
def Obligations.ResetChipValues : Prop :=
  let c := State.reset.st
  c.revision = State.reset.params.revisionId ∧ c.newMode = false ∧
  [c.pum1, c.pum2, c.mc2Old, c.mc2New, c.mc1Old, c.mc1New, c.crModtest, c.crSwprog, c.crLinap, c.crOffext,
    c.crPixdepth, c.crMmio, c.crFinal, c.gcExta, c.gcExtb, c.gcMisc, c.dacCmd] = List.replicate 17 0 ∧
  c.dacState = .idle ∧ c.dacCount = 0 ∧ c.clockIdx = 0 ∧ c.bankW = 0 ∧ c.bankR = 0 ∧ c.linAddr = 0 ∧
  [c.lin2mb, c.linActive, c.mmioActive, c.altPost, c.rgb8, c.rgb15, c.rgb16, c.rgb32] = List.replicate 8 false ∧
  c.pixelClock = none

/-! ### The Mode Decoder -/

/-- The clock table, entry by entry (R176). -/
def Obligations.ClockTableEntries : Prop :=
  clockTable 0 = 25174800 ∧ clockTable 1 = 28636360 ∧ clockTable 2 = 44900000 ∧ clockTable 3 = 36000000 ∧
  clockTable 4 = 57272000 ∧ clockTable 5 = 65000000 ∧ clockTable 6 = 50350000 ∧ clockTable 7 = 40000000 ∧
  clockTable 8 = 88000000 ∧ clockTable 9 = 98000000 ∧ clockTable 10 = 118800000 ∧ clockTable 11 = 108000000 ∧
  clockTable 12 = 72000000 ∧ clockTable 13 = 77000000 ∧ clockTable 14 = 80000000 ∧ clockTable 15 = 75000000

/-- The depth decode table: which one flag a decode pass asserts, row by row (R179). -/
def Obligations.DepthDecodeTable : Prop :=
  ∀ (P : Params) (c : Chip),
    let d := decodedChip P c
    let flags := (d.rgb8, d.rgb15, d.rgb16, d.rgb32)
    let ds := c.crPixdepth.toNat / 2 ^ P.pdDepth.val % 4
    let sup := c.crPixdepth.getLsbD P.pdSuppBit.val
    let hn := c.dacCmd.toNat / 16
    (ds = 0 → sup = false → flags = (true, false, false, false)) ∧
    (ds = 0 → sup = true → flags = (false, false, false, false)) ∧
    (ds = 1 → hn = 3 → flags = (false, false, true, false)) ∧
    (ds = 1 → hn ≠ 3 → flags = (false, true, false, false)) ∧
    (ds = 2 → flags = (false, false, false, true)) ∧
    (ds = 3 → flags = (false, false, false, false))

/-- One decode pass changes the four depth flags, the pixel clock and the timing history alone; the pixel clock is the table entry of the latched index,
divided by the divisor code of the new-mode cell, and is what the timing sink gets (R178, R180, R184: the rounding is the spec's decision D13, the
sink's form D32). -/
def Obligations.DecodePassResolvesTheClock : Prop :=
  ∀ s : State,
    let clk := clockTable s.st.clockIdx
    let d := s.st.mc2New.toNat / 2 ^ s.params.mc2Div.val % 4
    ∃ pc : Nat,
      (d = 0 → pc = clk) ∧ (d = 1 → 2 * pc = clk) ∧ (d = 2 → 4 * pc = clk) ∧
      (d = 3 → 3 * pc ≤ 2 * clk ∧ 2 * clk < 3 * pc + 3) ∧
      modeDecode s = { s with
        st := { s.st with
          rgb8 := (decodedChip s.params s.st).rgb8
          rgb15 := (decodedChip s.params s.st).rgb15
          rgb16 := (decodedChip s.params s.st).rgb16
          rgb32 := (decodedChip s.params s.st).rgb32
          pixelClock := some pc }
        tlog := s.tlog ++ [(s.params.timingDivPlaceholder, pc)] }

/-- Decode() depends on the latched index, the new-mode mode-control-2 cell, the pixel-depth cell and the command byte alone; a second pass with no write
in between gives the same flags and clock and appends one more entry, the same one (R183). -/
def Obligations.DecodeIsIdempotent : Prop :=
  (∀ (P : Params) (c c' : Chip), c.clockIdx = c'.clockIdx → c.mc2New = c'.mc2New →
    c.crPixdepth = c'.crPixdepth → c.dacCmd = c'.dacCmd →
    let d := decodedChip P c
    let d' := decodedChip P c'
    d.rgb8 = d'.rgb8 ∧ d.rgb15 = d'.rgb15 ∧ d.rgb16 = d'.rgb16 ∧ d.rgb32 = d'.rgb32 ∧
    d.pixelClock = d'.pixelClock) ∧
  (∀ s : State, (modeDecode (modeDecode s)).st = (modeDecode s).st ∧
    ∃ e, (modeDecode s).tlog = s.tlog ++ [e] ∧ (modeDecode (modeDecode s)).tlog = s.tlog ++ [e, e])

/-- After a decode pass at most one depth flag is true, and exactly one unless depth-select is 3, or is 0 with the suppression bit set (R182: an inference
of the spec; 90_conflicts.md C3). -/
def Obligations.AtMostOneDepthFlag : Prop :=
  ∀ (P : Params) (c : Chip),
    depthFlags (decodedChip P c) ≤ 1 ∧
    (depthFlags (decodedChip P c) = 1 ↔
      ¬ (depthSelect P c = 3 ∨ (depthSelect P c = 0 ∧ suppressed P c = true)))

/-- Decode() runs at the end of exactly the writes of R181, after their register update: then the outputs are those of a pass over the cells as written, with
one entry appended to the timing history; after any other operation but reset the outputs and the history are as before (the spec's decision D33). -/
def Obligations.DecoderRunsExactlyOn : Prop :=
  ∀ (i : Instr) (s t : State), exec i s = .next t →
    (runsDecoder s i = true →
      t.st = decodedChip s.params t.st ∧
      ∃ clk, t.st.pixelClock = some clk ∧ t.tlog = s.tlog ++ [(s.params.timingDivPlaceholder, clk)]) ∧
    (runsDecoder s i = false → t.tlog = s.tlog ∧
      (i ≠ .reset → t.st.rgb8 = s.st.rgb8 ∧ t.st.rgb15 = s.st.rgb15 ∧ t.st.rgb16 = s.st.rgb16 ∧
        t.st.rgb32 = s.st.rgb32 ∧ t.st.pixelClock = s.st.pixelClock))

/-! ### The whole machine -/

/-- The reset state meets the invariant of the states a device can be in (R27, R30 to R32, R39; the host's side by log 5). -/
def Obligations.ResetStateMeetsInv : Prop := DeviceInv State.reset

/-- Every step keeps the invariant: the detector's state and count agree, the aperture outputs and the two output flags are those of the stored bytes, at most
one depth flag is true, the revision byte is REVISION_ID, every byte store is canonical and within its address space; and no step changes a parameter (R27,
R30, R31, R32, R29, R33, R37). -/
def Obligations.StepKeepsInv : Prop :=
  ∀ s t : State, DeviceInv s → step s = .next t → DeviceInv t ∧ t.params = s.params

/-- The block raises no exception: every operation completes in every state, and the anomalies of R230 have their values: an unknown index and a disabled
bank-alias port read 0xFF and ignore writes, a window offset beyond video memory wraps. -/
def Obligations.NoOperationRaises : Prop :=
  (∀ (i : Instr) (s : State), ∃ t, exec i s = .next t) ∧
  (∀ (s t : State) (x : Byte),
    (exec (.seqUnkR x) s = .next t ∨ exec (.crUnkR x) s = .next t ∨ exec (.gcUnkR x) s = .next t ∨
      (s.st.gcExtb.getLsbD s.params.gcbEnBit.val = false ∧
        (exec .bankwR s = .next t ∨ exec .bankrR s = .next t))) →
    t.result = some 0xFF ∧ t.st = s.st) ∧
  (∀ (s t : State) (x v : Byte),
    (exec (.seqUnkW x v) s = .next t ∨ exec (.crUnkW x v) s = .next t ∨ exec (.gcUnkW x v) s = .next t ∨
      (s.st.gcExtb.getLsbD s.params.gcbEnBit.val = false ∧
        (exec (.bankwW v) s = .next t ∨ exec (.bankrW v) s = .next t))) →
    t.st = s.st ∧ t.host = s.host) ∧
  (∀ (P : Params) (newMode : Bool) (bank : BitVec 5) (o : Offset), 0 < P.vramSize →
    effectiveOffset P newMode bank o < P.vramSize)

/-- A transaction of kind IOR or FBR yields one byte; one of kind IOW, FBW or RST yields nothing (R71). -/
def Obligations.ResultExactlyForReads : Prop :=
  ∀ (s t : State) (r : BusRequest) (rest : List HostEvent), s.pending = .access r :: rest → step s = .next t →
    (t.result.isSome = true ↔ r.kind = 0 ∨ r.kind = 2) ∧
    (t.result = none ↔ r.kind = 1 ∨ r.kind = 3 ∨ r.kind = 4)

/-- Each flag of R36 is changed by the transactions its row lists and by no other, and reset clears them: the mode flag by accesses to the unlock index (a read
sets it, a write clears it), the detector by the DAC ports, the aperture flags by the aperture register, the MMIO flag by its register, the alternate-post
flag by power-up-mode register 1, the depth flags by Decode(). The data alias counts as the register it reaches. -/
def Obligations.FlagsChangeOnlyAsListed : Prop :=
  ∀ (i : Instr) (s t : State), exec i s = .next t →
    (t.st.newMode ≠ s.st.newMode → i = .reset ∨ isUnlock s.params i = true) ∧
    (isUnlock s.params i = true → t.st.newMode = isRead i) ∧
    (t.st.dacState ≠ s.st.dacState → i = .reset ∨ isDacCommand i = true ∨ isDacReset i = true) ∧
    (t.st.linActive ≠ s.st.linActive ∨ t.st.lin2mb ≠ s.st.lin2mb → i = .reset ∨ ∃ v, i = .crLinapW v) ∧
    (t.st.mmioActive ≠ s.st.mmioActive → i = .reset ∨ ∃ v, i = .crMmioW v) ∧
    (t.st.altPost ≠ s.st.altPost → i = .reset ∨ (∃ v, i = .seqPum1W v) ∨
      ∃ x v, i = .seqaDataW x v ∧ seqReg s.params x = .pum1) ∧
    (t.st.rgb8 ≠ s.st.rgb8 ∨ t.st.rgb15 ≠ s.st.rgb15 ∨ t.st.rgb16 ≠ s.st.rgb16 ∨ t.st.rgb32 ≠ s.st.rgb32 →
      i = .reset ∨ runsDecoder s i = true) ∧
    (i = .reset → t.st.newMode = false ∧ t.st.dacState = .idle ∧ t.st.linActive = false ∧
      t.st.lin2mb = false ∧ t.st.mmioActive = false ∧ t.st.altPost = false ∧ depthFlags t.st = 0)

/-- The bank selectors are changed by the transactions of the table of R195 and by no other: mode-control-1 writes, enabled alias-port writes (the read-bank
port and extension register A only while separated), and reset. While the separated bit is set only those two and reset change the read bank; while it
is clear only mode-control-1 writes, enabled write-bank port writes and reset do, and it then equals the write bank (an inference of the spec). -/
def Obligations.BanksChangeOnlyAsListed : Prop :=
  ∀ (i : Instr) (s t : State), exec i s = .next t →
    let en := s.st.gcExtb.getLsbD s.params.gcbEnBit.val
    let sep := s.st.gcExtb.getLsbD s.params.gcbSepBit.val
    (t.st.bankW ≠ s.st.bankW →
      i = .reset ∨ (∃ v, i = .seqMc1W v) ∨ (∃ x v, i = .seqaDataW x v ∧ seqReg s.params x = .mc1) ∨
      (en = true ∧ ∃ v, i = .bankwW v)) ∧
    (t.st.bankR ≠ s.st.bankR → sep = true →
      i = .reset ∨ (∃ v, i = .gcExtaW v) ∨ (en = true ∧ ∃ v, i = .bankrW v)) ∧
    (t.st.bankR ≠ s.st.bankR → sep = false →
      t.st.bankR = t.st.bankW ∧
      (i = .reset ∨ (∃ v, i = .seqMc1W v) ∨ (∃ x v, i = .seqaDataW x v ∧ seqReg s.params x = .mc1) ∨
        (en = true ∧ ∃ v, i = .bankwW v)))

/-- The dual registers' cells are independent (R23): outside reset no operation changes a cell of the mode that is not selected, a change of mode changes no
cell, and reads of the two registers, through either data port, show the selected mode's cells. -/
def Obligations.ShadowCellsAreIndependent : Prop :=
  ∀ (i : Instr) (s t : State), exec i s = .next t →
    (i ≠ .reset → s.st.newMode = true → t.st.mc1Old = s.st.mc1Old ∧ t.st.mc2Old = s.st.mc2Old) ∧
    (i ≠ .reset → s.st.newMode = false → t.st.mc1New = s.st.mc1New ∧ t.st.mc2New = s.st.mc2New) ∧
    (i ≠ .reset → t.st.newMode ≠ s.st.newMode →
      t.st.mc1Old = s.st.mc1Old ∧ t.st.mc2Old = s.st.mc2Old ∧
      t.st.mc1New = s.st.mc1New ∧ t.st.mc2New = s.st.mc2New) ∧
    (i = .seqMc1R → t.result = some (if s.st.newMode then s.st.mc1New else s.st.mc1Old)) ∧
    (i = .seqMc2R → t.result = some (if s.st.newMode then s.st.mc2New else s.st.mc2Old)) ∧
    (∀ x, i = .seqaDataR x → seqReg s.params x = .mc1 →
      t.result = some (if s.st.newMode then s.st.mc1New else s.st.mc1Old)) ∧
    (∀ x, i = .seqaDataR x → seqReg s.params x = .mc2 →
      t.result = some (if s.st.newMode then s.st.mc2New else s.st.mc2Old))

/-- The reads that change the chip state are those of R53 and no other: a command-port read while not Active, a reset-port read, a read of the unlock index
(the spec's decision D8); no read changes the timing history. That no read changes the host's side either is the stand-in's choice (R53 leaves the host's
side effects of a read open; D40, log 5). -/
def Obligations.ReadsWithSideEffects : Prop :=
  ∀ (i : Instr) (s t : State), isRead i = true → exec i s = .next t →
    t.host = s.host ∧ t.tlog = s.tlog ∧
    (t.st ≠ s.st →
      (i = .dacCmdR ∧ s.st.dacState ≠ .active) ∨ isDacReset i = true ∨ isUnlock s.params i = true)

/-- A write repeated leaves the state of the one write, but that each Decode() appends one more entry to the timing history and a command-port write while Idle
or Arming counts (R54). The stores are asked to be canonical, as every state of a run has them; the host's side is
the stand-in's (D40, log 5). -/
def Obligations.WritesAreIdempotent : Prop :=
  (∀ (i : Instr) (s t u : State), storageInv s.params s.host → isRead i = false → isDacCommand i = false →
    exec i s = .next t → exec i t = .next u →
    u.st = t.st ∧ u.host = t.host ∧
    (runsDecoder t i = false → u.tlog = t.tlog) ∧
    (runsDecoder t i = true → ∃ e, u.tlog = t.tlog ++ [e])) ∧
  (∀ (s t : State) (v : Byte), s.st.dacState ≠ .active → exec (.dacCmdW v) s = .next t →
    t.st.dacCount = s.st.dacCount + 1)

/-- The command byte is written only by a command-port write while Active (and by reset), no other operation's result, host call or effect on the host's side
depends on it but a command-port read while Active, and only its high nibble has an effect on the rest of the chip state and on the timing history (R215). -/
def Obligations.CommandByteOnlyWhileActive : Prop :=
  (∀ (i : Instr) (s t : State), exec i s = .next t → t.st.dacCmd ≠ s.st.dacCmd →
    i = .reset ∨ (s.st.dacState = .active ∧ i = .dacCmdW t.st.dacCmd)) ∧
  (∀ (i : Instr) (s t t' : State) (d : Byte), exec i s = .next t →
    exec i { s with st := { s.st with dacCmd := d } } = .next t' →
    ¬ (i = .dacCmdR ∧ s.st.dacState = .active) →
    t'.result = t.result ∧ t'.host = t.host ∧ t'.calls = t.calls ∧
    (d.toNat / 16 = s.st.dacCmd.toNat / 16 →
      t'.st = { t.st with dacCmd := t'.st.dacCmd } ∧ t'.tlog = t.tlog))

/-- The arming sequence (R254, an inference of the spec from R210): from an idle detector, after any operations with no reset-port access and no device reset
among them, of which at most four are command-port accesses, the count is the number of those accesses; after four, a command-port read returns the command
byte, which none of them has changed, and a command-port write latches its byte and returns the detector to Idle. -/
def Obligations.DacArmingSequence : Prop :=
  ∀ (is : List Instr) (s t : State), s.st.dacState = .idle → s.st.dacCount = 0 →
    (∀ i ∈ is, i ≠ .reset ∧ isDacReset i = false) → is.countP isDacCommand ≤ 4 →
    execAll is s = .next t →
    t.st.dacCount = is.countP isDacCommand ∧ t.st.dacCmd = s.st.dacCmd ∧
    (is.countP isDacCommand = 4 → t.st.dacState = .active ∧
      (∃ u, exec .dacCmdR t = .next u ∧ u.result = some s.st.dacCmd) ∧
      ∀ v, ∃ u, exec (.dacCmdW v) t = .next u ∧ u.st.dacCmd = v ∧ u.st.dacState = .idle)

/-- What the host answers, and everything of the host's but the misc-output byte, never reaches the chip state: two machines with the same parameters, chip state,
misc-output byte and timing history, and whatever answers, registers and memories on the host's side, have after any same operations the same chip
state and timing history (93_implementation_defined.md section 1: "a proof about the block must hold for every byte the host returns"; R35, R175). -/
def Obligations.HostAnswersNeverReachTheChip : Prop :=
  ∀ (is : List Instr) (s₁ s₂ t₁ t₂ : State),
    s₁.params = s₂.params → s₁.st = s₂.st → s₁.host.misc = s₂.host.misc → s₁.tlog = s₂.tlog →
    execAll is s₁ = .next t₁ → execAll is s₂ = .next t₂ →
    t₁.st = t₂.st ∧ t₁.tlog = t₂.tlog

/-- No operation changes the host's index registers but by a call of the host's port handler (R258). That none changes its misc-output byte or start
address, a passthrough write of the misc-output port included, is the stand-in's choice (R93 and R256 let the host's handler change the misc-output
byte; D40, log 5). -/
def Obligations.IndexRegistersAreTheHosts : Prop :=
  ∀ (i : Instr) (s t : State), exec i s = .next t →
    t.host.misc = s.host.misc ∧ t.host.startAddr = s.host.startAddr ∧
    ((∀ p v, t.calls ≠ s.calls ++ [.portWrite p v]) →
      t.host.seqIndex = s.host.seqIndex ∧ t.host.crtcIndex = s.host.crtcIndex ∧
      t.host.gcIndex = s.host.gcIndex)
end

