-- ==== Sys2Proof/Laws/Encoding.lean ====
section
/-! SUPPORT. The fields of a key put together from its fields (30_encoding.md R70). -/

namespace Sys2Proof

open Sys2Proof.Machine

section fields
variable (kind : BitVec 3) (zero : BitVec 4) (addr : BitVec 17) (idx data : Byte)

/-- Each bit of a key is a bit of the field its place belongs to. -/
theorem getLsbD_mkKey (n : Nat) :
    (mkKey kind zero addr idx data).getLsbD n =
      if n < 8 then data.getLsbD n
      else if n < 16 then idx.getLsbD (n - 8)
      else if n < 33 then addr.getLsbD (n - 16)
      else if n < 37 then zero.getLsbD (n - 33)
      else kind.getLsbD (n - 37) := by
  show (kind ++ zero ++ addr ++ idx ++ data).getLsbD n = _
  simp only [BitVec.getLsbD_append]
  split <;> [skip; split] <;> [skip; skip; split] <;> [skip; skip; skip; split] <;>
    first
    | (simp; done)
    | (repeat' split) <;> first | rfl | omega

@[simp] theorem keyKind_mkKey : keyKind (mkKey kind zero addr idx data) = kind := by
  refine BitVec.eq_of_getLsbD_eq fun i hi => ?_
  simp only [keyKind, BitVec.getLsbD_extractLsb', getLsbD_mkKey]
  rw [if_neg (by omega), if_neg (by omega), if_neg (by omega), if_neg (by omega)]
  simp [hi]

@[simp] theorem keyZero_mkKey : keyZero (mkKey kind zero addr idx data) = zero := by
  refine BitVec.eq_of_getLsbD_eq fun i hi => ?_
  simp only [keyZero, BitVec.getLsbD_extractLsb', getLsbD_mkKey]
  rw [if_neg (by omega), if_neg (by omega), if_neg (by omega), if_pos (by omega)]
  simp [hi]

@[simp] theorem keyAddr_mkKey : keyAddr (mkKey kind zero addr idx data) = addr := by
  refine BitVec.eq_of_getLsbD_eq fun i hi => ?_
  simp only [keyAddr, BitVec.getLsbD_extractLsb', getLsbD_mkKey]
  rw [if_neg (by omega), if_neg (by omega), if_pos (by omega)]
  simp [hi]

@[simp] theorem keyIdx_mkKey : keyIdx (mkKey kind zero addr idx data) = idx := by
  refine BitVec.eq_of_getLsbD_eq fun i hi => ?_
  simp only [keyIdx, BitVec.getLsbD_extractLsb', getLsbD_mkKey]
  rw [if_neg (by omega), if_pos (by omega)]
  simp [hi]

@[simp] theorem keyData_mkKey : keyData (mkKey kind zero addr idx data) = data := by
  refine BitVec.eq_of_getLsbD_eq fun i hi => ?_
  simp only [keyData, BitVec.getLsbD_extractLsb', getLsbD_mkKey]
  rw [if_pos (by omega)]
  simp [hi]

/-- The port of a port access's key. -/
@[simp] theorem keyPort_ioKey (p : Port) : keyPort (mkKey kind zero (ioAddr p) idx data) = p := by
  refine BitVec.eq_of_getLsbD_eq fun i hi => ?_
  simp only [keyPort, BitVec.getLsbD_extractLsb', getLsbD_mkKey]
  rw [if_neg (by omega), if_neg (by omega), if_pos (by omega)]
  show (decide (i < 16) && (0#1 ++ p).getLsbD _) = _
  rw [BitVec.getLsbD_append, if_pos (by omega)]
  simp [hi]

/-- Bit 32 of a port access's key is 0. -/
@[simp] theorem keyIoBit_ioKey (p : Port) : keyIoBit (mkKey kind zero (ioAddr p) idx data) = false := by
  rw [keyIoBit, getLsbD_mkKey]
  show (0#1 ++ p).getLsbD 16 = false
  rw [BitVec.getLsbD_append, if_neg (by omega)]
  simp

end fields

/-- A key is what its fields make (R70). -/
theorem mkKey_fields (k : Key) : mkKey (keyKind k) (keyZero k) (keyAddr k) (keyIdx k) (keyData k) = k := by
  refine BitVec.eq_of_getLsbD_eq fun i hi => ?_
  rw [getLsbD_mkKey]
  simp only [keyKind, keyZero, keyAddr, keyIdx, keyData, BitVec.getLsbD_extractLsb']
  (repeat' split) <;> (rw [decide_eq_true (by omega), Bool.true_and]; congr 1; omega)

end Sys2Proof
end

