-- ==== Sys2Proof/Laws/Memory.lean ====
section
/-! SUPPORT. Byte storage: a read after a write, and the canonical form, which every write keeps. -/

namespace Sys2Proof.Machine

@[simp] theorem Memory.read_nil (a : Nat) : Memory.read [] a = unlistedByte := rfl

theorem Memory.read_cons (b : Nat) (w : Byte) (m : Memory) (a : Nat) :
    Memory.read ((b, w) :: m) a = if a = b then w else Memory.read m a := rfl

/-- An address below every listed one is unlisted. -/
theorem Memory.read_of_lt (m : Memory) (a : Nat) (h : ∀ c ∈ m, a < c.1) :
    m.read a = unlistedByte := by
  induction m with
  | nil => rfl
  | cons c m ih =>
    obtain ⟨b, w⟩ := c
    have hb : a < b := h (b, w) (by simp)
    rw [Memory.read_cons, if_neg (by omega)]
    exact ih fun c hc => h c (by simp [hc])

/-- Which cells a write leaves: the old ones, and perhaps the one written. -/
theorem Memory.mem_write {m : Memory} {a : Nat} {v : Byte} {c : Host.Cell} (h : c ∈ m.write a v) :
    c ∈ m ∨ c = (a, v) ∧ v ≠ unlistedByte := by
  induction m with
  | nil =>
    rw [Memory.write] at h
    split at h
    · simp at h
    · next hv => exact .inr ⟨by simpa using h, hv⟩
  | cons d m ih =>
    obtain ⟨b, w⟩ := d
    rw [Memory.write] at h
    split at h
    · split at h
      · exact .inl h
      · next hv =>
        rcases List.mem_cons.1 h with h | h
        · exact .inr ⟨h, hv⟩
        · exact .inl h
    · split at h
      · split at h
        · exact .inl (List.mem_cons_of_mem _ h)
        · next hv =>
          rcases List.mem_cons.1 h with h | h
          · exact .inr ⟨h, hv⟩
          · exact .inl (List.mem_cons_of_mem _ h)
      · rcases List.mem_cons.1 h with h | h
        · exact .inl (by simp [h])
        · rcases ih h with h | h
          · exact .inl (List.mem_cons_of_mem _ h)
          · exact .inr h

/-- A bound on every listed address survives a write within it. -/
theorem Memory.write_bound {m : Memory} {a : Nat} {v : Byte} {n : Nat} (hm : ∀ c ∈ m, c.1 < n) (ha : a < n) :
    ∀ c ∈ m.write a v, c.1 < n := by
  intro c hc
  rcases Memory.mem_write hc with h | ⟨rfl, -⟩
  · exact hm c h
  · exact ha

/-- Every write keeps the canonical form. -/
theorem Memory.write_wf {m : Memory} (h : m.wf) (a : Nat) (v : Byte) : (m.write a v).wf := by
  refine ⟨?_, fun c hc => ?_⟩
  · obtain ⟨hs, -⟩ := h
    induction m with
    | nil =>
      rw [Memory.write]
      split <;> simp
    | cons d m ih =>
      obtain ⟨b, w⟩ := d
      obtain ⟨hb, hm⟩ := List.pairwise_cons.1 hs
      rw [Memory.write]
      split
      · next hlt =>
        split
        · exact hs
        · refine List.pairwise_cons.2 ⟨fun c hc => ?_, hs⟩
          rcases List.mem_cons.1 hc with rfl | hc
          · exact hlt
          · exact Nat.lt_trans hlt (hb c hc)
      · next hge =>
        split
        · next heq =>
          split
          · exact hm
          · exact List.pairwise_cons.2 ⟨fun c hc => heq ▸ hb c hc, hm⟩
        · next hne =>
          refine List.pairwise_cons.2 ⟨fun c hc => ?_, ih hm⟩
          rcases Memory.mem_write hc with hc | ⟨rfl, -⟩
          · exact hb c hc
          · show b < a
            omega
  · rcases Memory.mem_write hc with hc | ⟨rfl, hv⟩
    · exact h.2 c hc
    · exact hv

/-- A read at the address written gives the byte written. -/
theorem Memory.read_write_same {m : Memory} (h : m.wf) (a : Nat) (v : Byte) :
    (m.write a v).read a = v := by
  obtain ⟨hs, -⟩ := h
  induction m with
  | nil =>
    rw [Memory.write]
    split
    · next hv => simp [hv]
    · simp [Memory.read_cons]
  | cons d m ih =>
    obtain ⟨b, w⟩ := d
    obtain ⟨hb, hm⟩ := List.pairwise_cons.1 hs
    rw [Memory.write]
    split
    · next hlt =>
      split
      · next hv =>
        rw [hv]
        refine Memory.read_of_lt _ _ fun c hc => ?_
        rcases List.mem_cons.1 hc with rfl | hc
        · exact hlt
        · exact Nat.lt_trans hlt (hb c hc)
      · simp [Memory.read_cons]
    · split
      · next heq =>
        split
        · next hv =>
          rw [hv]
          exact Memory.read_of_lt _ _ fun c hc => heq ▸ hb c hc
        · simp [Memory.read_cons]
      · next hne =>
        rw [Memory.read_cons, if_neg hne]
        exact ih hm

/-- A read at another address gives what it gave before. -/
theorem Memory.read_write_other (m : Memory) {a b : Nat} (hab : b ≠ a) (v : Byte) :
    (m.write a v).read b = m.read b := by
  induction m with
  | nil =>
    rw [Memory.write]
    split
    · rfl
    · rw [Memory.read_cons, if_neg hab]
  | cons d m ih =>
    obtain ⟨e, w⟩ := d
    rw [Memory.write]
    split
    · split
      · rfl
      · rw [Memory.read_cons, if_neg hab]
    · split
      · next heq =>
        subst heq
        split
        · rw [Memory.read_cons, if_neg hab]
        · rw [Memory.read_cons, Memory.read_cons, if_neg hab, if_neg hab]
      · rw [Memory.read_cons, Memory.read_cons, ih]

/-- Two writes of one byte at one address are one write. -/
theorem Memory.write_write (m : Memory) (a : Nat) (v : Byte) (h : m.wf) :
    (m.write a v).write a v = m.write a v := by
  obtain ⟨hs, -⟩ := h
  induction m with
  | nil => by_cases hv : v = unlistedByte <;> simp [Memory.write, hv]
  | cons d m ih =>
    obtain ⟨b, w⟩ := d
    obtain ⟨hb, hm⟩ := List.pairwise_cons.1 hs
    by_cases hlt : a < b
    · by_cases hv : v = unlistedByte <;> simp [Memory.write, hv, hlt]
    · by_cases heq : a = b
      · subst heq
        by_cases hv : v = unlistedByte
        · subst hv
          have := Memory.read_of_lt m a hb
          cases m with
          | nil => simp [Memory.write]
          | cons c m =>
            have hac : a < c.1 := hb c (by simp)
            obtain ⟨e, x⟩ := c
            simp [Memory.write, show a < e from hac]
        · simp [Memory.write, hv]
      · simp [Memory.write, hlt, heq, ih hm]

end Sys2Proof.Machine
end

