-- ==== Sys2Proof/Laws/State.lean ====
section
/-! SUPPORT. One lemma per field per update of the state, true by rfl, so that no later proof unfolds a record update. -/

namespace Sys2Proof.Machine

section withChip
variable (s : State) (c : Chip)
@[simp] theorem withChip_params : (s.withChip c).params = s.params := rfl
@[simp] theorem withChip_st : (s.withChip c).st = c := rfl
@[simp] theorem withChip_host : (s.withChip c).host = s.host := rfl
@[simp] theorem withChip_tlog : (s.withChip c).tlog = s.tlog := rfl
@[simp] theorem withChip_calls : (s.withChip c).calls = s.calls := rfl
@[simp] theorem withChip_answer : (s.withChip c).answer = s.answer := rfl
@[simp] theorem withChip_result : (s.withChip c).result = s.result := rfl
@[simp] theorem withChip_pending : (s.withChip c).pending = s.pending := rfl
end withChip

section withHost
variable (s : State) (h : HostSide)
@[simp] theorem withHost_params : (s.withHost h).params = s.params := rfl
@[simp] theorem withHost_st : (s.withHost h).st = s.st := rfl
@[simp] theorem withHost_host : (s.withHost h).host = h := rfl
@[simp] theorem withHost_tlog : (s.withHost h).tlog = s.tlog := rfl
@[simp] theorem withHost_calls : (s.withHost h).calls = s.calls := rfl
@[simp] theorem withHost_answer : (s.withHost h).answer = s.answer := rfl
@[simp] theorem withHost_result : (s.withHost h).result = s.result := rfl
@[simp] theorem withHost_pending : (s.withHost h).pending = s.pending := rfl
end withHost

section logCall
variable (s : State) (c : HostCall)
@[simp] theorem logCall_params : (s.logCall c).params = s.params := rfl
@[simp] theorem logCall_st : (s.logCall c).st = s.st := rfl
@[simp] theorem logCall_host : (s.logCall c).host = s.host := rfl
@[simp] theorem logCall_tlog : (s.logCall c).tlog = s.tlog := rfl
@[simp] theorem logCall_calls : (s.logCall c).calls = s.calls ++ [c] := rfl
@[simp] theorem logCall_answer : (s.logCall c).answer = s.answer := rfl
@[simp] theorem logCall_result : (s.logCall c).result = s.result := rfl
@[simp] theorem logCall_pending : (s.logCall c).pending = s.pending := rfl
end logCall

section begin
variable (s : State) (r : BusRequest) (rest : List HostEvent)
@[simp] theorem begin_params : (s.begin r rest).params = s.params := rfl
@[simp] theorem begin_st : (s.begin r rest).st = s.st := rfl
@[simp] theorem begin_host : (s.begin r rest).host = s.host := rfl
@[simp] theorem begin_tlog : (s.begin r rest).tlog = s.tlog := rfl
@[simp] theorem begin_calls : (s.begin r rest).calls = s.calls := rfl
@[simp] theorem begin_answer : (s.begin r rest).answer = r.answer := rfl
@[simp] theorem begin_result : (s.begin r rest).result = s.result := rfl
@[simp] theorem begin_pending : (s.begin r rest).pending = rest := rfl
end begin

section modeDecode
variable (s : State)
@[simp] theorem modeDecode_params : (modeDecode s).params = s.params := rfl
@[simp] theorem modeDecode_st : (modeDecode s).st = decodedChip s.params s.st := rfl
@[simp] theorem modeDecode_host : (modeDecode s).host = s.host := rfl
@[simp] theorem modeDecode_tlog : (modeDecode s).tlog =
    s.tlog ++ [(s.params.timingDivPlaceholder, resolvedClock s.params s.st)] := rfl
@[simp] theorem modeDecode_calls : (modeDecode s).calls = s.calls := rfl
@[simp] theorem modeDecode_answer : (modeDecode s).answer = s.answer := rfl
@[simp] theorem modeDecode_result : (modeDecode s).result = s.result := rfl
@[simp] theorem modeDecode_pending : (modeDecode s).pending = s.pending := rfl
end modeDecode

section hostWrites
variable (s : State) (g : Group) (i v : Byte) (p : Port) (o : Offset) (a : Nat)
@[simp] theorem hostStdWrite_params : (hostStdWrite g i v s).params = s.params := rfl
@[simp] theorem hostStdWrite_st : (hostStdWrite g i v s).st = s.st := rfl
@[simp] theorem hostStdWrite_host : (hostStdWrite g i v s).host = s.host.writeStd g i v := rfl
@[simp] theorem hostStdWrite_tlog : (hostStdWrite g i v s).tlog = s.tlog := rfl
@[simp] theorem hostStdWrite_calls : (hostStdWrite g i v s).calls = s.calls ++ [.stdWrite g i v] := rfl
@[simp] theorem hostPortWrite_params : (hostPortWrite p v s).params = s.params := rfl
@[simp] theorem hostPortWrite_st : (hostPortWrite p v s).st = s.st := rfl
@[simp] theorem hostPortWrite_host :
    (hostPortWrite p v s).host = standInPortWrite s.params s.host p v := rfl
@[simp] theorem hostPortWrite_tlog : (hostPortWrite p v s).tlog = s.tlog := rfl
@[simp] theorem hostPortWrite_calls : (hostPortWrite p v s).calls = s.calls ++ [.portWrite p v] := rfl
@[simp] theorem hostMemWrite_params : (hostMemWrite o v s).params = s.params := rfl
@[simp] theorem hostMemWrite_st : (hostMemWrite o v s).st = s.st := rfl
@[simp] theorem hostMemWrite_host : (hostMemWrite o v s).host =
    { s.host with genMem := s.host.genMem.write o.toNat v } := rfl
@[simp] theorem hostMemWrite_tlog : (hostMemWrite o v s).tlog = s.tlog := rfl
@[simp] theorem hostMemWrite_calls : (hostMemWrite o v s).calls = s.calls ++ [.memWrite o v] := rfl
@[simp] theorem vramWrite_params : (vramWrite a v s).params = s.params := rfl
@[simp] theorem vramWrite_st : (vramWrite a v s).st = s.st := rfl
@[simp] theorem vramWrite_host : (vramWrite a v s).host =
    { s.host with vram := s.host.vram.write a v } := rfl
@[simp] theorem vramWrite_tlog : (vramWrite a v s).tlog = s.tlog := rfl
@[simp] theorem vramWrite_calls : (vramWrite a v s).calls = s.calls := rfl
end hostWrites

section detector
variable (c : Chip)
@[simp] theorem detectorIdle_count : (detectorIdle c).dacCount = 0 := rfl
@[simp] theorem detectorIdle_state : (detectorIdle c).dacState = .idle := rfl
@[simp] theorem detectorCount_count : (detectorCount c).dacCount = c.dacCount + 1 := rfl
@[simp] theorem detectorCount_state :
    (detectorCount c).dacState = if c.dacCount + 1 = 4 then .active else .arming := rfl
end detector

end Sys2Proof.Machine
end

