-- ==== Sys2Proof/Laws/Ops.lean ====
section
/-! SUPPORT. For each shared operation, one lemma that says once what it can answer, and what each leaves unchanged; the later proofs cite
these instead of unfolding the operation. -/

namespace Sys2Proof.Machine

variable {s t : State}

/-- The end of a read: the byte is the result and nothing else changes. -/
theorem yields_next {b : Byte} (h : yields b s = .next t) : t = { s with result := some b } := by
  cases h; rfl

/-- The end of a transaction that yields nothing: the result is empty and nothing else changes. -/
theorem yieldsNothing_next (h : yieldsNothing s = .next t) : t = { s with result := none } := by
  cases h; rfl

/-- A cell's read changes the result alone. -/
theorem cellRead_next {b : Byte} (h : cellRead b s = .next t) : t = { s with result := some b } :=
  yields_next h

/-- A write of the chip state changes it and the result alone. -/
theorem chipWrite_next {c : Chip} (h : chipWrite c s = .next t) :
    t = { s with st := c, result := none } := by
  cases h; rfl

/-- An unknown index reads the sentinel and changes nothing else (R96). -/
theorem unknownRead_next (h : unknownRead s = .next t) : t = { s with result := some 0xFF } :=
  yields_next h

/-- A write at an unknown index changes the result alone (R96). -/
theorem unknownWrite_next (h : unknownWrite s = .next t) : t = { s with result := none } :=
  yieldsNothing_next h

/-- A standard register's read is one call of the host, and its answer is the result (R12). -/
theorem hostStdRead_next {g : Group} {i : Byte} (h : hostStdRead g i s = .next t) :
    t = { s with
      calls := s.calls ++ [.stdRead g i]
      result := some (s.answer.getD ((s.host.stdFile g).read i.toNat)) } := by
  cases h; rfl

/-- A host port's read is one call of the host, and its answer is the result (R12). -/
theorem hostPortRead_next {p : Port} (h : hostPortRead p s = .next t) :
    t = { s with
      calls := s.calls ++ [.portRead p]
      result := some (s.answer.getD (standInPort s.params s.host p)) } := by
  cases h; rfl

/-- A read of the host's generic memory is one call of the host, and its answer is the result (R12). -/
theorem hostMemRead_next {o : Offset} (h : hostMemRead o s = .next t) :
    t = { s with
      calls := s.calls ++ [.memRead o]
      result := some (s.answer.getD (s.host.genMem.read o.toNat)) } := by
  cases h; rfl

/-- An answer the host gave is what its handler answers. -/
@[simp] theorem hostByte_of_answer {a b : Byte} (h : s.answer = some a) : s.hostByte b = a := by
  simp [State.hostByte, h]

/-- A port write changes no input of the block but the index registers (R13, D40). -/
theorem standInPortWrite_frame (P : Params) (h : HostSide) (p : Port) (v : Byte) :
    let h' := standInPortWrite P h p v
    h'.misc = h.misc ∧ h'.startAddr = h.startAddr ∧ h'.seqStd = h.seqStd ∧ h'.crtcStd = h.crtcStd ∧
    h'.gcStd = h.gcStd ∧ h'.genMem = h.genMem ∧ h'.vram = h.vram := by
  simp only [standInPortWrite]
  split
  · simp
  · split
    · simp
    · split <;> simp

/-- A port write is idempotent on the host's side. -/
theorem standInPortWrite_twice (P : Params) (h : HostSide) (p : Port) (v : Byte) :
    standInPortWrite P (standInPortWrite P h p v) p v = standInPortWrite P h p v := by
  have hm : (standInPortWrite P h p v).misc = h.misc := (standInPortWrite_frame P h p v).1
  generalize hw : standInPortWrite P h p v = h' at hm ⊢
  rw [standInPortWrite] at hw ⊢
  rw [hm]
  split at hw
  · rw [if_pos ‹_›, ← hw]
  · rw [if_neg ‹_›]
    split at hw
    · rw [if_pos ‹_›, ← hw]
    · rw [if_neg ‹_›]
      split at hw
      · rw [if_pos ‹_›, ← hw]
      · rw [if_neg ‹_›]

/-- A standard register's write changes that group's file alone (R12). -/
theorem writeStd_frame (h : HostSide) (g : Group) (i v : Byte) :
    let h' := h.writeStd g i v
    h'.seqIndex = h.seqIndex ∧ h'.crtcIndex = h.crtcIndex ∧ h'.gcIndex = h.gcIndex ∧ h'.misc = h.misc ∧
    h'.startAddr = h.startAddr ∧ h'.genMem = h.genMem ∧ h'.vram = h.vram := by
  cases g <;> simp [HostSide.writeStd]

/-- A decode pass changes the five decoder outputs of the chip state alone (R180). -/
theorem decodedChip_frame (P : Params) (c : Chip) :
    decodedChip P c = { c with
      rgb8 := (decodedChip P c).rgb8
      rgb15 := (decodedChip P c).rgb15
      rgb16 := (decodedChip P c).rgb16
      rgb32 := (decodedChip P c).rgb32
      pixelClock := some (resolvedClock P c) } := rfl

/-- The write of a bank changes the bank selectors alone, and the read bank only while not separated (R26). -/
theorem writeBank_frame (P : Params) (b : BitVec 5) (c : Chip) :
    writeBank P b c = { c with bankW := b, bankR := if separated P c then c.bankR else b } := rfl

/-- No operation of a fixed state answers a fault: there is none (R230). -/
theorem no_fault (f : Fault) : False := nomatch f

end Sys2Proof.Machine
end

