-- ==== Sys2Proof/Laws/Params.lean ====
section
/-! SUPPORT. What a legal parameter set gives (00_scope.md R7, R8, 30_encoding.md R74, 60_exceptions.md R236). -/

namespace Sys2Proof.Machine

/-- The conditions of a legal parameter set, one by one. -/
theorem paramsLegal_iff (P : Params) :
    paramsLegal P = true ↔
      0 < P.vramSize ∧ portsLegal P ∧
      indicesLegal P.seqStdMax (seqNamed P) ∧
      indicesLegal P.crtcStdMax (crtcNamed P) ∧
      indicesLegal P.gcStdMax (gcNamed P) ∧
      bitsLegal P := by
  rw [paramsLegal, decide_eq_true_eq]

/-- The CRTC base depends on one bit of the misc-output byte alone (R91). -/
theorem crtcBase_color_or_mono (P : Params) (misc : Byte) :
    crtcBase P misc = crtcBase P miscColor ∨ crtcBase P misc = crtcBase P miscMono := by
  have hc : bit miscColor P.miscIoasBit = true := by
    rw [bit, miscColor, BitVec.getLsbD_allOnes]
    simp
  have hm : bit miscMono P.miscIoasBit = false := by
    simp [bit, miscMono]
  by_cases h : bit misc P.miscIoasBit = true
  · exact .inl (by simp [crtcBase, h, hc])
  · exact .inr (by simp [crtcBase, h, hm])

/-- Under a legal parameter set no two claimed ports are equal, whatever the base (R74). -/
theorem claimedPorts_nodup {P : Params} (h : paramsLegal P = true) (misc : Byte) :
    (claimedPorts P misc).Nodup := by
  obtain ⟨-, ⟨hc, hm⟩, -⟩ := (paramsLegal_iff P).1 h
  rcases crtcBase_color_or_mono P misc with hb | hb
  · simpa only [claimedPorts, crtcDataPort, bankWPort, bankRPort, hb] using hc
  · simpa only [claimedPorts, crtcDataPort, bankWPort, bankRPort, hb] using hm

/-- The video memory of a legal parameter set has a byte (R203). -/
theorem vramSize_pos {P : Params} (h : paramsLegal P = true) : 0 < P.vramSize :=
  ((paramsLegal_iff P).1 h).1

/-- The reset state's parameter set is legal. -/
theorem default_legal : paramsLegal Params.default = true := by
  decide

end Sys2Proof.Machine
end

