-- ==== Sys2Proof/Laws/PerInstr.lean ====
section
/-! SUPPORT. Statements made per instruction, one lemma per constructor. ReservedBitsZero: the key of every operation has bits 36:33 zero and a
kind below 101, so that no operation's key is reserved for its kind or those bits (30_encoding.md R70, R77). -/

namespace Sys2Proof.Laws.ReservedBitsZero

/-- Bits 36:33 of the operation's key are 0 and its kind is none of the reserved ones. -/
def Statement (i : Instr) : Prop :=
  ∀ (P : Params) (misc : Byte),
    keyZero (encodeKey P misc i) = 0 ∧ keyKind (encodeKey P misc i) < 5

/-- A port read's key. -/
theorem of_read {p : Port} {i : Byte} : keyZero (ioReadKey p i) = 0 ∧ keyKind (ioReadKey p i) < 5 := by
  simp [ioReadKey]

/-- A port write's key. -/
theorem of_write {p : Port} {i v : Byte} : keyZero (ioWriteKey p i v) = 0 ∧ keyKind (ioWriteKey p i v) < 5 := by
  simp [ioWriteKey]

theorem passR (p : Port) : Statement (.passR p) := fun _ _ => of_read
theorem passW (p : Port) (v : Byte) : Statement (.passW p v) := fun _ _ => of_write
theorem seqStdR (i : Byte) : Statement (.seqStdR i) := fun _ _ => of_read
theorem seqStdW (i : Byte) (v : Byte) : Statement (.seqStdW i v) := fun _ _ => of_write
theorem seqUnlockR : Statement .seqUnlockR := fun _ _ => of_read
theorem seqUnlockW (v : Byte) : Statement (.seqUnlockW v) := fun _ _ => of_write
theorem seqPum1R : Statement .seqPum1R := fun _ _ => of_read
theorem seqPum1W (v : Byte) : Statement (.seqPum1W v) := fun _ _ => of_write
theorem seqMc2R : Statement .seqMc2R := fun _ _ => of_read
theorem seqMc2W (v : Byte) : Statement (.seqMc2W v) := fun _ _ => of_write
theorem seqMc1R : Statement .seqMc1R := fun _ _ => of_read
theorem seqMc1W (v : Byte) : Statement (.seqMc1W v) := fun _ _ => of_write
theorem seqPum2R : Statement .seqPum2R := fun _ _ => of_read
theorem seqPum2W (v : Byte) : Statement (.seqPum2W v) := fun _ _ => of_write
theorem seqUnkR (i : Byte) : Statement (.seqUnkR i) := fun _ _ => of_read
theorem seqUnkW (i : Byte) (v : Byte) : Statement (.seqUnkW i v) := fun _ _ => of_write
theorem crStdR (i : Byte) : Statement (.crStdR i) := fun _ _ => of_read
theorem crStdW (i : Byte) (v : Byte) : Statement (.crStdW i v) := fun _ _ => of_write
theorem crModtestR : Statement .crModtestR := fun _ _ => of_read
theorem crModtestW (v : Byte) : Statement (.crModtestW v) := fun _ _ => of_write
theorem crSwprogR : Statement .crSwprogR := fun _ _ => of_read
theorem crSwprogW (v : Byte) : Statement (.crSwprogW v) := fun _ _ => of_write
theorem crLinapR : Statement .crLinapR := fun _ _ => of_read
theorem crLinapW (v : Byte) : Statement (.crLinapW v) := fun _ _ => of_write
theorem crStarthiR : Statement .crStarthiR := fun _ _ => of_read
theorem crStarthiW (v : Byte) : Statement (.crStarthiW v) := fun _ _ => of_write
theorem crOffextR : Statement .crOffextR := fun _ _ => of_read
theorem crOffextW (v : Byte) : Statement (.crOffextW v) := fun _ _ => of_write
theorem crPixdepthR : Statement .crPixdepthR := fun _ _ => of_read
theorem crPixdepthW (v : Byte) : Statement (.crPixdepthW v) := fun _ _ => of_write
theorem crMmioR : Statement .crMmioR := fun _ _ => of_read
theorem crMmioW (v : Byte) : Statement (.crMmioW v) := fun _ _ => of_write
theorem crFinalR : Statement .crFinalR := fun _ _ => of_read
theorem crFinalW (v : Byte) : Statement (.crFinalW v) := fun _ _ => of_write
theorem crUnkR (i : Byte) : Statement (.crUnkR i) := fun _ _ => of_read
theorem crUnkW (i : Byte) (v : Byte) : Statement (.crUnkW i v) := fun _ _ => of_write
theorem gcStdR (i : Byte) : Statement (.gcStdR i) := fun _ _ => of_read
theorem gcStdW (i : Byte) (v : Byte) : Statement (.gcStdW i v) := fun _ _ => of_write
theorem gcExtaR : Statement .gcExtaR := fun _ _ => of_read
theorem gcExtaW (v : Byte) : Statement (.gcExtaW v) := fun _ _ => of_write
theorem gcExtbR : Statement .gcExtbR := fun _ _ => of_read
theorem gcExtbW (v : Byte) : Statement (.gcExtbW v) := fun _ _ => of_write
theorem gcMiscR : Statement .gcMiscR := fun _ _ => of_read
theorem gcMiscW (v : Byte) : Statement (.gcMiscW v) := fun _ _ => of_write
theorem gcUnkR (i : Byte) : Statement (.gcUnkR i) := fun _ _ => of_read
theorem gcUnkW (i : Byte) (v : Byte) : Statement (.gcUnkW i v) := fun _ _ => of_write
theorem bankwR : Statement .bankwR := fun _ _ => of_read
theorem bankwW (v : Byte) : Statement (.bankwW v) := fun _ _ => of_write
theorem bankrR : Statement .bankrR := fun _ _ => of_read
theorem bankrW (v : Byte) : Statement (.bankrW v) := fun _ _ => of_write
theorem dacCmdR : Statement .dacCmdR := fun _ _ => of_read
theorem dacCmdW (v : Byte) : Statement (.dacCmdW v) := fun _ _ => of_write
theorem dacRstR (r : DacReset) : Statement (.dacRstR r) := fun _ _ => of_read
theorem dacRstW (r : DacReset) (v : Byte) : Statement (.dacRstW r v) := fun _ _ => of_write
theorem seqaIdxR : Statement .seqaIdxR := fun _ _ => of_read
theorem seqaIdxW (v : Byte) : Statement (.seqaIdxW v) := fun _ _ => of_write
theorem seqaDataR (i : Byte) : Statement (.seqaDataR i) := fun _ _ => of_read
theorem seqaDataW (i : Byte) (v : Byte) : Statement (.seqaDataW i v) := fun _ _ => of_write
theorem fbR (o : Offset) : Statement (.fbR o) := fun _ _ => by simp [encodeKey]
theorem fbW (o : Offset) (v : Byte) : Statement (.fbW o v) := fun _ _ => by simp [encodeKey]
theorem reset : Statement .reset := fun _ _ => by simp [encodeKey]

end Sys2Proof.Laws.ReservedBitsZero
end

