-- ==== Sys2Proof/Tests/Slice0.lean ====
section
/-! SUPPORT. Named tests: keys written out bit by bit from 30_encoding.md R70 to R77, the smoke tests of WellFormed, single steps with the results of
95_test_vectors.md (row ids in the comments) or worked by hand from the rules, and for every statement with hypotheses a witness that meets them. -/

namespace Sys2Proof.Tests

open Sys2Proof Sys2Proof.Machine

/-! ### Fixtures -/

/-- The defaults, with the OPEN parameters set to values of the tests' own: alias ports 0x4000 and 0x4001, CR_FINAL 0x60, revision 0x25. -/
def tp : Params :=
  { Params.default with
    pSeqAliasIndex := some 0x4000, pSeqAliasData := some 0x4001, crFinal := some 0x60, revisionId := 0x25 }

/-- The reset state under those parameters. -/
def ts : State := { State.reset with params := tp, st := Chip.reset 0x25 }

/-- That state with chip state `c`. -/
def tc (c : Chip) : State := { ts with st := c }

/-- The chip state right after reset. -/
def c0 : Chip := Chip.reset 0x25

/-- What an outcome that is a next state shows. -/
def show1 {α : Type} (o : Outcome) (f : State → α) : Option α :=
  match o with
  | .next t => some (f t)
  | .fault _ => none
  | .refused _ => none

/-- Decode under the tests' parameters and the colour base. -/
def dec (k : Key) : Decoded := decodeKey tp 0x01 k

theorem test_tp_legal : paramsLegal tp = true := by decide

/-! ### WellFormed: an ill-formed term for each check -/

theorem test_wf_pass_refuses_a_claimed_port : (Instr.passR 0x3C5).wf tp 0x01 = false := by decide
theorem test_wf_pass_refuses_the_active_crtc_port :
    (Instr.passW 0x3D5 0x00).wf tp 0x01 = false ∧ (Instr.passW 0x3D5 0x00).wf tp 0x00 = true := by decide
theorem test_wf_seq_std_refuses_above_threshold : (Instr.seqStdR 0x05).wf tp 0x01 = false := by decide
theorem test_wf_seq_unk_refuses_a_named_index : (Instr.seqUnkW 0x0E 0x00).wf tp 0x01 = false := by decide
theorem test_wf_seq_unk_refuses_a_standard_index : (Instr.seqUnkR 0x04).wf tp 0x01 = false := by decide
theorem test_wf_crtc_std_refuses_above_threshold : (Instr.crStdW 0x19 0x00).wf tp 0x01 = false := by decide
theorem test_wf_crtc_unk_refuses_a_named_index : (Instr.crUnkR 0x60).wf tp 0x01 = false := by decide
theorem test_wf_gc_std_refuses_above_threshold : (Instr.gcStdR 0x09).wf tp 0x01 = false := by decide
theorem test_wf_gc_unk_refuses_a_named_index : (Instr.gcUnkW 0x2F 0x00).wf tp 0x01 = false := by decide
theorem test_wf_refuses_what_is_unset :
    Instr.crFinalR.wf Params.default 0x01 = false ∧ Instr.seqaIdxR.wf Params.default 0x01 = false ∧
    (Instr.seqaDataW 0x0E 0x00).wf Params.default 0x01 = false := by decide

/-! ### Illegal parameter sets (R7, R8, R9, R74) -/

theorem test_two_claimed_ports_equal_is_illegal : paramsLegal { tp with pDacCmd := 0x3C5 } = false := by decide
theorem test_alias_on_a_claimed_port_is_illegal :
    paramsLegal { tp with pSeqAliasData := some 0x3D8 } = false := by decide
theorem test_two_named_indices_equal_is_illegal : paramsLegal { tp with seqPum2 := 0x0E } = false := by decide
theorem test_named_index_at_threshold_is_illegal : paramsLegal { tp with crtcStdMax := 0x1E } = false := by decide
theorem test_no_video_memory_is_illegal : paramsLegal { tp with vramSize := 0 } = false := by decide
theorem test_overlapping_bits_are_illegal :
    paramsLegal { tp with mc2Cs2Bit := 1 } = false ∧ paramsLegal { tp with pdSuppBit := 3 } = false ∧
    paramsLegal { tp with laActiveBit := 6 } = false := by decide
/-- The boundary of each condition: both bits of the clock-select field, and the two bank-control bits in one place. -/
theorem test_overlapping_misc_and_bank_bits_are_illegal :
    paramsLegal { tp with gcbSepBit := 2 } = false ∧ paramsLegal { tp with miscIoasBit := 2 } = false ∧
    paramsLegal { tp with miscIoasBit := 3 } = false ∧ bitsLegal { tp with miscIoasBit := 1 } ∧
    bitsLegal { tp with miscIoasBit := 4 } := by decide

/-! ### Decoding: one word for every constructor, written from R70 and the parameters

A key's ten hexadecimal digits: bits 39:36 (0 IOR, 2 IOW, 4 FBR, 6 FBW, 8 RST), bits 35:32 (1 if bit 16 of a window offset is set), four digits of port
or offset, two of idx, two of data. -/

theorem test_decode_seq_reads :
    dec 0x0003C50400 = .op (.seqStdR 0x04) ∧ dec 0x0003C50500 = .op (.seqUnkR 0x05) ∧
    dec 0x0003C50B00 = .op .seqUnlockR ∧ dec 0x0003C50C00 = .op .seqPum1R ∧ dec 0x0003C50D00 = .op .seqMc2R ∧
    dec 0x0003C50E00 = .op .seqMc1R ∧ dec 0x0003C50F00 = .op .seqPum2R ∧ dec 0x0003C51000 = .op (.seqUnkR 0x10) := by
  decide

theorem test_decode_seq_writes :
    dec 0x2003C50412 = .op (.seqStdW 0x04 0x12) ∧ dec 0x2003C50512 = .op (.seqUnkW 0x05 0x12) ∧
    dec 0x2003C50B12 = .op (.seqUnlockW 0x12) ∧ dec 0x2003C50C12 = .op (.seqPum1W 0x12) ∧
    dec 0x2003C50D12 = .op (.seqMc2W 0x12) ∧ dec 0x2003C50E05 = .op (.seqMc1W 0x05) ∧
    dec 0x2003C50F12 = .op (.seqPum2W 0x12) ∧ dec 0x2003C5FF12 = .op (.seqUnkW 0xFF 0x12) := by
  decide

theorem test_decode_crtc_reads :
    dec 0x0003D51800 = .op (.crStdR 0x18) ∧ dec 0x0003D51900 = .op (.crUnkR 0x19) ∧
    dec 0x0003D51E00 = .op .crModtestR ∧ dec 0x0003D51F00 = .op .crSwprogR ∧ dec 0x0003D52100 = .op .crLinapR ∧
    dec 0x0003D52700 = .op .crStarthiR ∧ dec 0x0003D52900 = .op .crOffextR ∧ dec 0x0003D53800 = .op .crPixdepthR ∧
    dec 0x0003D53900 = .op .crMmioR ∧ dec 0x0003D56000 = .op .crFinalR := by
  decide

theorem test_decode_crtc_writes :
    dec 0x2003D51812 = .op (.crStdW 0x18 0x12) ∧ dec 0x2003D51912 = .op (.crUnkW 0x19 0x12) ∧
    dec 0x2003D51E12 = .op (.crModtestW 0x12) ∧ dec 0x2003D51F12 = .op (.crSwprogW 0x12) ∧
    dec 0x2003D521F5 = .op (.crLinapW 0xF5) ∧ dec 0x2003D52712 = .op (.crStarthiW 0x12) ∧
    dec 0x2003D52912 = .op (.crOffextW 0x12) ∧ dec 0x2003D53804 = .op (.crPixdepthW 0x04) ∧
    dec 0x2003D53901 = .op (.crMmioW 0x01) ∧ dec 0x2003D56012 = .op (.crFinalW 0x12) := by
  decide

theorem test_decode_gc :
    dec 0x0003CF0800 = .op (.gcStdR 0x08) ∧ dec 0x0003CF0900 = .op (.gcUnkR 0x09) ∧
    dec 0x0003CF0E00 = .op .gcExtaR ∧ dec 0x0003CF0F00 = .op .gcExtbR ∧ dec 0x0003CF2F00 = .op .gcMiscR ∧
    dec 0x2003CF0812 = .op (.gcStdW 0x08 0x12) ∧ dec 0x2003CF0912 = .op (.gcUnkW 0x09 0x12) ∧
    dec 0x2003CF0E8A = .op (.gcExtaW 0x8A) ∧ dec 0x2003CF0F05 = .op (.gcExtbW 0x05) ∧
    dec 0x2003CF2F12 = .op (.gcMiscW 0x12) := by
  decide

theorem test_decode_bank_ports :
    dec 0x0003D80000 = .op .bankwR ∧ dec 0x2003D80007 = .op (.bankwW 0x07) ∧
    dec 0x0003D90000 = .op .bankrR ∧ dec 0x2003D90005 = .op (.bankrW 0x05) := by
  decide

theorem test_decode_dac_ports :
    dec 0x0003C60000 = .op .dacCmdR ∧ dec 0x2003C60030 = .op (.dacCmdW 0x30) ∧
    dec 0x0003C70000 = .op (.dacRstR .rst0) ∧ dec 0x0003C80000 = .op (.dacRstR .rst1) ∧
    dec 0x2003C90012 = .op (.dacRstW .rst2 0x12) := by
  decide

theorem test_decode_alias_ports :
    dec 0x0040000000 = .op .seqaIdxR ∧ dec 0x204000000E = .op (.seqaIdxW 0x0E) ∧
    dec 0x0040010E00 = .op (.seqaDataR 0x0E) ∧ dec 0x2040010E05 = .op (.seqaDataW 0x0E 0x05) := by
  decide

theorem test_decode_window_and_reset :
    dec 0x4001000000 = .op (.fbR 0x00100) ∧ dec 0x61234500AA = .op (.fbW 0x12345 0xAA) ∧
    dec 0x61FFFF005B = .op (.fbW 0x1FFFF 0x5B) ∧ dec 0x8000000000 = .op .reset := by
  decide

theorem test_decode_unclaimed_ports :
    dec 0x0003C40000 = .op (.passR 0x3C4) ∧ dec 0x2003C4000D = .op (.passW 0x3C4 0x0D) ∧
    dec 0x0003B53800 = .op (.passR 0x3B5) := by
  decide

/-- The CRTC data port and the bank ports follow the base (95_test_vectors.md 2.1, V64). -/
theorem test_decode_mono_base :
    decodeKey tp 0x00 0x0003D53800 = .op (.passR 0x3D5) ∧ decodeKey tp 0x00 0x0003B53800 = .op .crPixdepthR ∧
    decodeKey tp 0x00 0x2003B80009 = .op (.bankwW 0x09) := by
  decide

/-- An unset OPEN port or index does not exist (R236, R144). -/
theorem test_decode_unset_parameters :
    decodeKey Params.default 0x01 0x0040000000 = .op (.passR 0x4000) ∧
    decodeKey Params.default 0x01 0x0003D56000 = .op (.crUnkR 0x60) := by
  decide

/-- Reserved keys (R77): kinds 101 to 111, each of bits 36:33, bit 32 of a port access. -/
theorem test_decode_reserved :
    dec 0xA000000000 = .reserved .kind ∧ dec 0xC000000000 = .reserved .kind ∧ dec 0xE003C50E05 = .reserved .kind ∧
    dec 0x1003C50E05 = .reserved .zeroBits ∧ dec 0x0200000000 = .reserved .zeroBits ∧
    dec 0x6800000000 = .reserved .zeroBits ∧ dec 0x2103C50E05 = .reserved .ioAddressBit := by
  decide

theorem test_table_words :
    decodeTableWord 40 0x2003C50E05 = some (.seqMc1W 0x05) ∧ decodeTableWord 40 0x0003D80000 = some .bankwR ∧
    decodeTableWord 40 0xA000000000 = none := by
  decide

/-- The encoder's words are those written out above. -/
theorem test_encode :
    encodeKey tp 0x01 (.seqMc1W 0x05) = 0x2003C50E05 ∧ encodeKey tp 0x00 (.bankwW 0x09) = 0x2003B80009 ∧
    encodeKey tp 0x01 (.fbW 0x12345 0xAA) = 0x61234500AA ∧ encodeKey tp 0x01 (.seqaDataW 0x0E 0x05) = 0x2040010E05 := by
  decide

/-! ### Byte storage -/

theorem test_memory_keeps_its_order :
    Memory.write (Memory.write (Memory.write [] 5 0x11) 2 0x22) 9 0x33 = [(2, 0x22), (5, 0x11), (9, 0x33)] := by
  decide
theorem test_memory_drops_what_reads_anyway : Memory.write [(2, 0x22), (5, 0x11)] 2 0x00 = [(5, 0x11)] := by decide
theorem test_reset_memory_is_canonical :
    State.reset.host.vram.wf ∧ State.reset.host.genMem.wf ∧ State.reset.host.seqStd.wf := by decide

/-! ### Steps -/

/-- V84's first row, as a step of the machine after reset: the key's transaction runs and is taken off the list. -/
theorem test_step_runs_a_placed_key :
    show1 (step (State.reset.withFetchWord 40 0x2003C50E05)) (fun t => (t.st.mc1Old, t.st.bankW, t.pending)) =
      some (0x05, 5, []) := by
  decide
theorem test_step_after_reset_is_idle : step State.reset = .next State.reset := by
  rfl
theorem test_step_refuses_a_reserved_key :
    step (ts.withFetchWord 40 0xA000000000) = .refused (.reservedKey .kind) := by
  rfl
theorem test_step_refuses_illegal_parameters :
    step { ts with params := { tp with vramSize := 0 } } = .refused .illegalParameters := by
  rfl
/-- The index byte is the host's at the moment of the access (R72, R79): the index is set, then the data port is written. -/
theorem test_step_takes_the_host_index :
    show1 (step { ts with
        host := { ts.host with seqIndex := 0x0E }
        pending := [.access { kind := 1, zero := 0, addr := 0x3C5, data := 0x05, answer := none }] })
      (fun t => t.st.mc1Old) = some 0x05 := by
  decide
theorem test_step_host_action :
    show1 (step { ts with pending := [.setMisc 0x0D] }) (fun t => (t.host.misc, t.pending)) = some (0x0D, []) := by
  decide

/-! ### Single operations -/

/-- R93's example; the index register moves, `st` does not. -/
theorem test_pass_w : show1 (exec (.passW 0x3C4 0x0D) ts) (fun t => (t.host.seqIndex, t.st)) = some (0x0D, c0) := by decide
/-- R92's example, and 0xFF at a port that is no index port (D40). -/
theorem test_pass_r :
    show1 (exec (.passR 0x3C4) { ts with host := { ts.host with seqIndex := 0x0E } }) (·.result) = some (some 0x0E) ∧
    show1 (exec (.passR 0x3C7) ts) (·.result) = some (some 0xFF) := by decide
/-- The host's answer is the result (R92). -/
theorem test_pass_r_answer :
    show1 (exec (.passR 0x3CC) { ts with answer := some 0x5A }) (·.result) = some (some 0x5A) := by decide

/-- R98: no Decode(); the byte is stored unchanged. -/
theorem test_seq_std_w :
    show1 (exec (.seqStdW 0x04 0x06) ts) (fun t => (t.host.seqStd, t.tlog)) = some ([(4, 0x06)], []) := by decide
theorem test_seq_std_r :
    show1 (exec (.seqStdR 0x04) { ts with host := { ts.host with seqStd := [(4, 0x06)] } }) (·.result) =
      some (some 0x06) := by decide
/-- R102: a standard CRTC write runs Decode() (95_test_vectors.md 1.4). -/
theorem test_cr_std_w :
    show1 (exec (.crStdW 0x11 0x00) ts) (fun t => (t.st.rgb8, t.tlog)) = some (true, [(1, 25174800)]) := by decide
theorem test_cr_std_r :
    show1 (exec (.crStdR 0x0C) ts) (fun t => (t.result, t.calls)) = some (some 0x00, [.stdRead .crtc 0x0C]) := by decide
theorem test_gc_std_w : show1 (exec (.gcStdW 0x06 0x05) ts) (·.host.gcStd) = some [(6, 0x05)] := by decide
theorem test_gc_std_r : show1 (exec (.gcStdR 0x06) ts) (·.calls) = some [.stdRead .gc 0x06] := by decide

theorem test_seq_unlock_r :
    show1 (exec .seqUnlockR ts) (fun t => (t.result, t.st.newMode)) = some (some 0x25, true) := by decide
theorem test_seq_unlock_w : show1 (exec (.seqUnlockW 0xFF) (tc { c0 with newMode := true })) (·.st) = some c0 := by decide
theorem test_seq_pum1_w :
    show1 (exec (.seqPum1W 0x10) ts) (·.st.altPost) = some true ∧
    show1 (exec (.seqPum1W 0xEF) (tc { c0 with altPost := true })) (·.st.altPost) = some false := by decide
/-- R115's example. -/
theorem test_seq_mc2_r :
    show1 (exec .seqMc2R (tc { c0 with mc2Old := 0x11, mc2New := 0x22 })) (·.result) = some (some 0x11) ∧
    show1 (exec .seqMc2R (tc { c0 with mc2Old := 0x11, mc2New := 0x22, newMode := true })) (·.result) =
      some (some 0x22) := by decide
/-- 1.8's check: misc 0x0D, byte 0x47: index 15, divisor 3, 50000000 Hz. -/
theorem test_seq_mc2_w_new :
    show1 (exec (.seqMc2W 0x47) { ts with st := { c0 with newMode := true }, host := { ts.host with misc := 0x0D } })
      (fun t => (t.st.clockIdx, t.st.pixelClock)) = some (15, some 50000000) := by decide
/-- 1.8's row 8: misc 0x01, byte 0x40: the high bit is index bit 3. -/
theorem test_seq_mc2_w_high_bit :
    show1 (exec (.seqMc2W 0x40) (tc { c0 with newMode := true })) (fun t => (t.st.clockIdx, t.st.pixelClock)) =
      some (8, some 88000000) := by decide
/-- S10a, S10b. -/
theorem test_seq_mc1_w :
    show1 (exec (.seqMc1W 0x05) (tc { c0 with newMode := true })) (fun t => (t.st.mc1New, t.st.bankW, t.st.bankR)) =
      some (0x07, 7, 7) ∧
    show1 (exec (.seqMc1W 0x05) ts) (fun t => (t.st.mc1Old, t.st.bankW, t.st.bankR)) = some (0x05, 5, 5) := by decide
/-- R118, R26: the cell keeps eight bits, the bank five; the read bank stays while separated. -/
theorem test_seq_mc1_w_separated :
    show1 (exec (.seqMc1W 0xFF) (tc { c0 with gcExtb := 0x01, bankR := 3 }))
      (fun t => (t.st.mc1Old, t.st.bankW, t.st.bankR)) = some (0xFF, 31, 3) := by decide
/-- R117: not inverted again. -/
theorem test_seq_mc1_r :
    show1 (exec .seqMc1R (tc { c0 with mc1Old := 0x05, mc1New := 0x07, newMode := true })) (·.result) =
      some (some 0x07) := by decide
theorem test_seq_pum2_w : show1 (exec (.seqPum2W 0x5A) ts) (·.st) = some { c0 with pum2 := 0x5A } := by decide
/-- S7a. -/
theorem test_seq_unk : show1 (exec (.seqUnkR 0x07) ts) (·.result) = some (some 0xFF) := by decide

/-- S6a, S6b. -/
theorem test_cr_linap_w :
    show1 (exec (.crLinapW 0xC5) ts) (fun t => (t.st.linAddr, t.st.linActive, t.st.lin2mb)) =
      some (0x03500000, false, false) ∧
    show1 (exec (.crLinapW 0xF5) ts) (fun t => (t.st.linAddr, t.st.linActive, t.st.lin2mb)) =
      some (0x03500000, true, true) := by decide
/-- S9b, S9d. -/
theorem test_cr_starthi_r :
    show1 (exec .crStarthiR { ts with host := { ts.host with startAddr := 0x20000 } }) (·.result) = some (some 0x01) ∧
    show1 (exec .crStarthiR { ts with host := { ts.host with startAddr := 0xE0000 } }) (·.result) =
      some (some 0x03) := by decide
/-- 1.1: depth-select 1 with the nibble 3, and with another. -/
theorem test_cr_pixdepth_w_16 :
    show1 (exec (.crPixdepthW 0x14) (tc { c0 with dacCmd := 0x3F }))
      (fun t => (t.st.rgb8, t.st.rgb15, t.st.rgb16, t.st.rgb32)) = some (false, false, true, false) ∧
    show1 (exec (.crPixdepthW 0x04) (tc { c0 with dacCmd := 0x23 }))
      (fun t => (t.st.rgb8, t.st.rgb15, t.st.rgb16, t.st.rgb32)) = some (false, true, false, false) := by decide
/-- 1.1: suppressed 8bpp, and depth-select 2. -/
theorem test_cr_pixdepth_w_others :
    show1 (exec (.crPixdepthW 0x10) ts) (fun t => (t.st.rgb8, t.st.rgb32)) = some (false, false) ∧
    show1 (exec (.crPixdepthW 0x18) ts) (fun t => (t.st.rgb8, t.st.rgb32)) = some (false, true) := by decide
theorem test_cr_mmio_w : show1 (exec (.crMmioW 0x01) ts) (·.st.mmioActive) = some true := by decide
theorem test_cr_storage_writes :
    show1 (exec (.crModtestW 0x5A) ts) (·.st) = some { c0 with crModtest := 0x5A } ∧
    show1 (exec (.crSwprogW 0x5A) ts) (·.st) = some { c0 with crSwprog := 0x5A } ∧
    show1 (exec (.crOffextW 0x5A) ts) (·.st) = some { c0 with crOffext := 0x5A } ∧
    show1 (exec (.crFinalW 0x5A) ts) (·.st) = some { c0 with crFinal := 0x5A } := by decide
theorem test_cr_reads :
    let s := tc { c0 with crModtest := 1, crSwprog := 2, crLinap := 3, crOffext := 4, crPixdepth := 5, crMmio := 6, crFinal := 7 }
    show1 (exec .crModtestR s) (·.result) = some (some 1) ∧ show1 (exec .crSwprogR s) (·.result) = some (some 2) ∧
    show1 (exec .crLinapR s) (·.result) = some (some 3) ∧ show1 (exec .crOffextR s) (·.result) = some (some 4) ∧
    show1 (exec .crPixdepthR s) (·.result) = some (some 5) ∧ show1 (exec .crMmioR s) (·.result) = some (some 6) ∧
    show1 (exec .crFinalR s) (·.result) = some (some 7) := by decide

/-- R161's example: the read bank is loaded only while separated. -/
theorem test_gc_exta_w :
    show1 (exec (.gcExtaW 0x8A) (tc { c0 with gcExtb := 0x01 })) (fun t => (t.st.gcExta, t.st.bankR)) = some (0x8A, 10) ∧
    show1 (exec (.gcExtaW 0x8A) ts) (fun t => (t.st.gcExta, t.st.bankR)) = some (0x8A, 0) := by decide
/-- R26: toggling the separated bit moves no bank. -/
theorem test_gc_extb_w :
    show1 (exec (.gcExtbW 0x00) (tc { c0 with gcExtb := 0x05, bankW := 2, bankR := 5 }))
      (fun t => (t.st.gcExtb, t.st.bankW, t.st.bankR)) = some (0x00, 2, 5) := by decide
theorem test_gc_misc_w : show1 (exec (.gcMiscW 0x5A) ts) (·.st) = some { c0 with gcMisc := 0x5A } := by decide

/-- V60, V59. -/
theorem test_bankw_w :
    show1 (exec (.bankwW 0x22) (tc { c0 with gcExtb := 0x04 })) (fun t => (t.st.bankW, t.st.bankR)) = some (2, 2) ∧
    show1 (exec (.bankwW 0x07) ts) (·.st) = some c0 := by decide
/-- R191's example, and V65. -/
theorem test_bankw_r :
    show1 (exec .bankwR (tc { c0 with gcExtb := 0x04, bankW := 3 })) (·.result) = some (some 0x03) ∧
    show1 (exec .bankwR (tc { c0 with bankW := 3 })) (·.result) = some (some 0xFF) := by decide
/-- V61, V62. -/
theorem test_bankr_w :
    show1 (exec (.bankrW 0x05) (tc { c0 with gcExtb := 0x04, bankW := 2, bankR := 2 })) (·.st.bankR) = some 2 ∧
    show1 (exec (.bankrW 0x05) (tc { c0 with gcExtb := 0x05 })) (fun t => (t.st.bankW, t.st.bankR)) = some (0, 5) := by
  decide
theorem test_bankr_r :
    show1 (exec .bankrR (tc { c0 with gcExtb := 0x04, bankR := 2 })) (·.result) = some (some 0xFF) ∧
    show1 (exec .bankrR (tc { c0 with gcExtb := 0x05, bankR := 5 })) (·.result) = some (some 0x05) := by decide

/-- V75, and S3a's fifth access. -/
theorem test_dac_cmd_r :
    show1 (exec .dacCmdR (tc { c0 with dacState := .arming, dacCount := 3, dacCmd := 0x5A }))
      (fun t => (t.result, t.st.dacState, t.st.dacCount)) = some (some 0xFF, .active, 4) ∧
    show1 (exec .dacCmdR (tc { c0 with dacState := .active, dacCount := 4, dacCmd := 0x5A }))
      (fun t => (t.result, t.st.dacState, t.calls)) = some (some 0x5A, .active, []) := by decide
/-- V77. -/
theorem test_dac_cmd_w :
    show1 (exec (.dacCmdW 0x30) (tc { c0 with dacState := .active, dacCount := 4 }))
      (fun t => (t.st.dacCmd, t.st.dacState, t.st.dacCount, t.tlog)) = some (0x30, .idle, 0, [(1, 25174800)]) := by
  decide
/-- V78's first row: a write counts and reaches the palette. -/
theorem test_dac_cmd_w_idle :
    show1 (exec (.dacCmdW 0x01) ts) (fun t => (t.st.dacCmd, t.st.dacState, t.calls)) =
      some (0x00, .arming, [.portWrite 0x3C6 0x01]) := by decide
/-- V80, V79. -/
theorem test_dac_rst :
    show1 (exec (.dacRstR .rst2) (tc { c0 with dacState := .arming, dacCount := 2 }))
      (fun t => (t.st, t.calls)) = some (c0, [.portRead 0x3C9]) ∧
    show1 (exec (.dacRstW .rst1 0x00) (tc { c0 with dacState := .active, dacCount := 4, dacCmd := 0x5A }))
      (fun t => (t.st, t.calls)) = some ({ c0 with dacCmd := 0x5A }, [.portWrite 0x3C8 0x00]) := by decide

theorem test_seqa_idx :
    show1 (exec (.seqaIdxW 0x0E) ts) (·.host.seqIndex) = some 0x0E ∧
    show1 (exec .seqaIdxR { ts with host := { ts.host with seqIndex := 0x0E } }) (·.result) = some (some 0x0E) := by
  decide
theorem test_seqa_data :
    show1 (exec (.seqaDataW 0x0E 0x05) ts) (·.st.bankW) = some 5 ∧
    show1 (exec (.seqaDataR 0x0B) ts) (fun t => (t.result, t.st.newMode)) = some (some 0x25, true) := by decide

/-- S4, S5a. -/
theorem test_fb_w :
    show1 (exec (.fbW 0x12345 0xAA) (tc { c0 with rgb8 := true, bankW := 3 })) (·.host.vram) = some [(0x42345, 0xAA)] ∧
    show1 (exec (.fbW 0x1FFFF 0x5B) (tc { c0 with rgb8 := true, bankW := 1, newMode := true })) (·.host.vram) =
      some [(0x1FFFF, 0x5B)] := by decide
/-- S5b (old mode: all 17 bits), V69 (the modulo wraps). -/
theorem test_fb_w_edges :
    show1 (exec (.fbW 0x1FFFF 0x5B) (tc { c0 with rgb8 := true, bankW := 1 })) (·.host.vram) = some [(0x2FFFF, 0x5B)] ∧
    show1 (exec (.fbW 0x1FFFF 0xEE) (tc { c0 with rgb32 := true, bankW := 31 })) (·.host.vram) =
      some [(0x0FFFF, 0xEE)] := by decide
/-- R201's example (the read bank, not the write bank); V66 (no depth flag: the host's memory). -/
theorem test_fb_r :
    show1 (exec (.fbR 0x00100) { tc { c0 with rgb15 := true, bankR := 5, bankW := 2 } with
      host := { ts.host with vram := [(0x20100, 0x11), (0x50100, 0x77)] } }) (·.result) = some (some 0x77) ∧
    show1 (exec (.fbR 0x00100) { ts with host := { ts.host with genMem := [(0x100, 0x11)] } })
      (fun t => (t.result, t.calls)) = some (some 0x11, [.memRead 0x00100]) := by decide

/-- V83: every field of `st` to its reset value, the host kept. -/
theorem test_reset :
    show1 (exec .reset { tc { c0 with newMode := true, mc2New := 0x43, clockIdx := 15, bankW := 7, rgb8 := true } with
      host := { ts.host with misc := 0x0D } }) (fun t => (t.st, t.host.misc)) = some (c0, 0x0D) := by decide

/-! ### Witnesses: states and operands that meet the hypotheses of each statement, clause by clause, at boundary values -/

theorem witness_DecodeInvertsEncode :
    paramsLegal tp = true ∧ (Instr.passR 0x3C4).wf tp 0x01 = true ∧ (Instr.seqStdR 0x04).wf tp 0x01 = true ∧
    (Instr.seqUnkW 0x05 0x12).wf tp 0x01 = true ∧ (Instr.crStdW 0x18 0x12).wf tp 0x00 = true ∧
    (Instr.gcUnkR 0xFF).wf tp 0x01 = true ∧ Instr.crFinalR.wf tp 0x01 = true ∧
    (Instr.seqaDataW 0x0E 0x05).wf tp 0x01 = true ∧ (Instr.fbW 0x1FFFF 0x5B).wf tp 0x01 = true :=
  ⟨test_tp_legal, by decide⟩

theorem witness_DecodedOperationIsWellFormed : decodeKey tp 0x01 0x2003C50E05 = .op (.seqMc1W 0x05) := by decide

/-- A write, a window write, and a read at each group's data port, the data alias among them. -/
theorem witness_EncodeRecoversTheKey :
    (decodeKey tp 0x01 0x2003C50E05 = .op (.seqMc1W 0x05) ∧ keyKind 0x2003C50E05 = 1 ∧ keyPort 0x2003C50E05 = tp.pSeqData) ∧
    (decodeKey tp 0x01 0x61FFFF005B = .op (.fbW 0x1FFFF 0x5B) ∧ keyKind 0x61FFFF005B = 3) ∧
    (decodeKey tp 0x01 0x0040010E00 = .op (.seqaDataR 0x0E) ∧ keyKind 0x0040010E00 = 0 ∧
      some (keyPort 0x0040010E00) = tp.pSeqAliasData) ∧
    (decodeKey tp 0x01 0x0003D51900 = .op (.crUnkR 0x19) ∧ portClass tp 0x01 (keyPort 0x0003D51900) = .crtcData) ∧
    (decodeKey tp 0x01 0x0003CF0800 = .op (.gcStdR 0x08) ∧ portClass tp 0x01 (keyPort 0x0003CF0800) = .gcData) := by decide

/-- Every clause's index, the standard ranges at 0 and at their last index, the unknown ones at their first and last. -/
theorem witness_GroupIndexSelectsRegister :
    paramsLegal tp = true ∧ (0x00 : Byte) ≤ tp.seqStdMax ∧ (0x04 : Byte) ≤ tp.seqStdMax ∧
    (0x0B : Byte) = tp.seqUnlock ∧ (0x0C : Byte) = tp.seqPum1 ∧ (0x0D : Byte) = tp.seqMc2 ∧
    (0x0E : Byte) = tp.seqMc1 ∧ (0x0F : Byte) = tp.seqPum2 ∧
    unknownIndex tp.seqStdMax (seqNamed tp) 0x05 ∧ unknownIndex tp.seqStdMax (seqNamed tp) 0xFF ∧
    (0x18 : Byte) ≤ tp.crtcStdMax ∧ (0x1E : Byte) = tp.crModtest ∧ (0x1F : Byte) = tp.crSwprog ∧
    (0x21 : Byte) = tp.crLinap ∧ (0x27 : Byte) = tp.crStarthi ∧ (0x29 : Byte) = tp.crOffext ∧
    (0x38 : Byte) = tp.crPixdepth ∧ (0x39 : Byte) = tp.crMmio ∧ some (0x60 : Byte) = tp.crFinal ∧
    unknownIndex tp.crtcStdMax (crtcNamed tp) 0x19 ∧ unknownIndex tp.crtcStdMax (crtcNamed tp) 0xFF ∧
    (0x08 : Byte) ≤ tp.gcStdMax ∧ (0x0E : Byte) = tp.gcExta ∧ (0x0F : Byte) = tp.gcExtb ∧ (0x2F : Byte) = tp.gcMisc ∧
    unknownIndex tp.gcStdMax (gcNamed tp) 0x09 ∧ unknownIndex tp.gcStdMax (gcNamed tp) 0xFF :=
  ⟨test_tp_legal, by decide⟩

/-- A request for port `p`. -/
def portRequest (kind : BitVec 3) (p : Port) (v : Byte) : BusRequest :=
  { kind := kind, zero := 0, addr := ioAddr p, data := v, answer := none }

theorem witness_IndexByteComesFromTheHost :
    paramsLegal tp = true ∧ (portRequest 0 0x3C5 0).kind = 0 ∧ (portRequest 1 0x3C5 0).kind = 1 ∧
    requestPort (portRequest 0 0x3C5 0) = tp.pSeqData ∧ some (requestPort (portRequest 1 0x4001 0)) = tp.pSeqAliasData ∧
    requestPort (portRequest 0 0x3B5 0) = crtcDataPort tp 0x00 ∧ requestPort (portRequest 0 0x3D5 0) = crtcDataPort tp 0x01 ∧
    requestPort (portRequest 0 0x3CF 0) = tp.pGcData ∧
    (requestPort (portRequest 0 0x3C4 0) ≠ tp.pSeqData ∧ some (requestPort (portRequest 0 0x3C4 0)) ≠ tp.pSeqAliasData ∧
      requestPort (portRequest 0 0x3C4 0) ≠ crtcDataPort tp 0x01 ∧ requestPort (portRequest 0 0x3C4 0) ≠ tp.pGcData) :=
  ⟨test_tp_legal, by decide⟩

theorem witness_OnlyTheBaseBitMovesDecode :
    (0x01 : Byte).getLsbD tp.miscIoasBit.val = (0xFF : Byte).getLsbD tp.miscIoasBit.val := by decide

/-- A state whose next transaction writes mode-control-1. -/
def tsNext : State :=
  { ts with host := { ts.host with seqIndex := 0x0E }, pending := [.access (portRequest 1 0x3C5 0x05)] }

theorem witness_StepRunsTheDecodedOperation :
    paramsLegal tsNext.params = true ∧ tsNext.pending = .access (portRequest 1 0x3C5 0x05) :: [] ∧
    decodeKey tsNext.params tsNext.host.misc (requestKey tsNext.params tsNext.host (portRequest 1 0x3C5 0x05)) =
      .op (.seqMc1W 0x05) :=
  ⟨test_tp_legal, by decide⟩

theorem witness_PlacedKeyIsRunNext :
    paramsLegal ts.params = true ∧ decodeKey ts.params ts.host.misc 0x2003C50E05 = .op (.seqMc1W 0x05) :=
  ⟨test_tp_legal, by decide⟩

theorem witness_StepRefusesExactly :
    paramsLegal { tp with vramSize := 0 } = false ∧ paramsLegal ts.params = true ∧
    decodeKey ts.params ts.host.misc (requestKey ts.params ts.host (portRequest 5 0x3C5 0)) = .reserved .kind :=
  ⟨test_no_video_memory_is_illegal, test_tp_legal, by decide⟩

theorem witness_OnlyTransactionsChangeTheChip :
    (paramsLegal ts.params = true ∧ ts.pending = []) ∧
    (∃ t, step { ts with pending := [.setMisc 0x0D] } = .next t) ∧
    (∃ t, exec (.fbR 0x1FFFF) ts = .next t) ∧ ∃ t, exec (.fbW 0x1FFFF 0x5B) (tc { c0 with rgb8 := true }) = .next t :=
  ⟨⟨test_tp_legal, rfl⟩, ⟨_, rfl⟩, ⟨_, rfl⟩, ⟨_, rfl⟩⟩

/-- An unclaimed port, each index port, a port that is none, and an answer. -/
theorem witness_Unclaimed_ports :
    (0x3C4 : Port) ∉ claimedPorts tp 0x01 ∧ (0x3C4 : Port) = tp.pSeqIndex ∧
    ((0x3CE : Port) ≠ tp.pSeqIndex ∧ (0x3CE : Port) = tp.pGcIndex) ∧
    ((0x3D4 : Port) ≠ tp.pSeqIndex ∧ (0x3D4 : Port) ≠ tp.pGcIndex ∧ (0x3D4 : Port) = crtcIndexPort tp 0x01) ∧
    ((0x3CC : Port) ≠ tp.pSeqIndex ∧ (0x3CC : Port) ≠ tp.pGcIndex ∧ (0x3CC : Port) ≠ crtcIndexPort tp 0x01) ∧
    ts.answer = none ∧ { ts with answer := some 0x5A }.answer = some 0x5A := by decide

theorem witness_Standard_registers :
    paramsLegal tp = true ∧ (0x04 : Byte) ≤ tp.seqStdMax ∧ (0x18 : Byte) ≤ tp.crtcStdMax ∧ (0x08 : Byte) ≤ tp.gcStdMax ∧
    Memory.wf ts.host.seqStd ∧ Memory.wf ts.host.crtcStd ∧ Memory.wf ts.host.gcStd :=
  ⟨test_tp_legal, by decide⟩

theorem witness_Cell_reads :
    paramsLegal tp = true ∧ (tc c0).st.newMode = false ∧ (tc { c0 with newMode := true }).st.newMode = true ∧
    tp.crFinal = some 0x60 ∧ Params.default.crFinal = none :=
  ⟨test_tp_legal, by decide⟩

theorem witness_UnknownIndexAccesses :
    unknownIndex tp.seqStdMax (seqNamed tp) 0x05 ∧ unknownIndex tp.crtcStdMax (crtcNamed tp) 0x19 ∧
    unknownIndex tp.gcStdMax (gcNamed tp) 0x09 ∧ unknownIndex tp.gcStdMax (gcNamed tp) 0xFF := by decide

theorem witness_Mode_control_writes :
    (tc c0).st.newMode = false ∧ (tc { c0 with newMode := true }).st.newMode = true := by decide

/-- Each combination of the enabled and separated bits. -/
theorem witness_Bank_bits :
    let en (b : Byte) := b.getLsbD tp.gcbEnBit.val
    let sep (b : Byte) := b.getLsbD tp.gcbSepBit.val
    (en 0x00 = false ∧ sep 0x00 = false) ∧ (en 0x01 = false ∧ sep 0x01 = true) ∧
    (en 0x04 = true ∧ sep 0x04 = false) ∧ (en 0x05 = true ∧ sep 0x05 = true) := by decide

theorem witness_Dac_ports :
    paramsLegal tp = true ∧ (tc { c0 with dacState := .active, dacCount := 4 }).st.dacState = .active ∧
    (tc c0).st.dacState ≠ .active ∧ (tc { c0 with dacState := .arming, dacCount := 3 }).st.dacState ≠ .active ∧
    { tc c0 with answer := some 0x5A }.answer = some 0x5A :=
  ⟨test_tp_legal, by decide⟩

theorem witness_SequencerAliasPorts :
    ts.params.pSeqAliasIndex = some 0x4000 ∧ ts.params.pSeqAliasData = some 0x4001 ∧ ts.answer = none ∧
    { ts with answer := some 0x5A }.answer = some 0x5A := by decide

theorem witness_Framebuffer :
    let on (c : Chip) := c.rgb8 || c.rgb15 || c.rgb16 || c.rgb32
    on { c0 with rgb32 := true } = true ∧ on c0 = false ∧ (tc c0).host.vram.wf ∧ (tc c0).host.genMem.wf ∧
    { tc c0 with answer := some 0x5A }.answer = some 0x5A := by decide

theorem witness_BankedOffsetArithmetic : 0 < tp.vramSize := by decide

/-- Banked, new mode, the two offsets in different halves of the window; and not banked with no answer given. -/
theorem witness_FramebufferReadAfterWrite :
    let s := tc { c0 with rgb8 := true, newMode := true, bankW := 31, bankR := 31 }
    (storageInv s.params s.host ∧ banked s.st = true ∧
      effectiveOffset s.params s.st.newMode s.st.bankR 0x00005 = effectiveOffset s.params s.st.newMode s.st.bankW 0x10005) ∧
    (storageInv ts.params ts.host ∧ banked ts.st = false ∧ ts.answer = none) := by decide

/-- One pixel-depth and command byte for each row of the table. -/
theorem witness_DepthDecodeTable :
    let ds (b : Byte) := b.toNat / 2 ^ tp.pdDepth.val % 4
    let sup (b : Byte) := b.getLsbD tp.pdSuppBit.val
    (ds 0xE3 = 0 ∧ sup 0xE3 = false) ∧ (ds 0x10 = 0 ∧ sup 0x10 = true) ∧
    (ds 0x04 = 1 ∧ (0x3F : Byte).toNat / 16 = 3) ∧ (ds 0x04 = 1 ∧ (0x40 : Byte).toNat / 16 ≠ 3) ∧
    ds 0x08 = 2 ∧ ds 0xFF = 3 := by decide

/-- One mode-control-2 byte for each divisor. -/
theorem witness_DecodePassResolvesTheClock :
    let d (b : Byte) := b.toNat / 2 ^ tp.mc2Div.val % 4
    d 0x41 = 0 ∧ d 0x43 = 1 ∧ d 0x45 = 2 ∧ d 0x47 = 3 := by decide

theorem witness_DecodeIsIdempotent :
    let c := { c0 with bankW := 5, rgb32 := true }
    c0.clockIdx = c.clockIdx ∧ c0.mc2New = c.mc2New ∧ c0.crPixdepth = c.crPixdepth ∧ c0.dacCmd = c.dacCmd ∧ c ≠ c0 := by
  decide

/-- Each operation that runs the decoder, and one that does not. -/
theorem witness_DecoderRunsExactlyOn :
    let a := tc { c0 with newMode := true }
    let b := tc { c0 with dacState := .active, dacCount := 4 }
    (∃ t, exec (.crStdW 0x18 0x00) ts = .next t ∧ runsDecoder ts (.crStdW 0x18 0x00) = true) ∧
    (∃ t, exec (.seqaDataW 0x0D 0x43) a = .next t ∧ runsDecoder a (.seqaDataW 0x0D 0x43) = true) ∧
    (∃ t, exec (.dacCmdW 0x30) b = .next t ∧ runsDecoder b (.dacCmdW 0x30) = true) ∧
    ∃ t, exec (.seqMc2W 0x43) ts = .next t ∧ runsDecoder ts (.seqMc2W 0x43) = false :=
  ⟨⟨_, rfl, by decide⟩, ⟨_, rfl, by decide⟩, ⟨_, rfl, by decide⟩, ⟨_, rfl, by decide⟩⟩

theorem witness_StepKeepsInv : DeviceInv tsNext ∧ ∃ t, step tsNext = .next t := ⟨by decide, ⟨_, rfl⟩⟩

theorem witness_NoOperationRaises :
    (∃ t, exec (.seqUnkR 0x05) ts = .next t) ∧ (∃ t, exec (.gcUnkW 0x09 0x12) ts = .next t) ∧
    (ts.st.gcExtb.getLsbD tp.gcbEnBit.val = false ∧ (∃ t, exec .bankwR ts = .next t) ∧ ∃ t, exec (.bankrW 0x05) ts = .next t) ∧
    0 < tp.vramSize :=
  ⟨⟨_, rfl⟩, ⟨_, rfl⟩, ⟨by decide, ⟨_, rfl⟩, ⟨_, rfl⟩⟩, by decide⟩

theorem witness_ResultExactlyForReads :
    (∃ t, step tsNext = .next t) ∧ (∃ t, step { ts with pending := [.access (portRequest 0 0x3C6 0)] } = .next t) ∧
    ∃ t, step { ts with pending := [.access (portRequest 4 0x000 0)] } = .next t :=
  ⟨⟨_, rfl⟩, ⟨_, rfl⟩, ⟨_, rfl⟩⟩

/-- Each flag changed by an operation its row lists. -/
theorem witness_FlagsChangeOnlyAsListed :
    (∃ t, exec (.seqaDataR 0x0B) ts = .next t ∧ t.st.newMode ≠ ts.st.newMode ∧ isUnlock ts.params (.seqaDataR 0x0B) = true) ∧
    (∃ t, exec .dacCmdR ts = .next t ∧ t.st.dacState ≠ ts.st.dacState) ∧
    (∃ t, exec (.crLinapW 0x30) ts = .next t ∧ t.st.linActive ≠ ts.st.linActive ∧ t.st.lin2mb ≠ ts.st.lin2mb) ∧
    (∃ t, exec (.crMmioW 0x01) ts = .next t ∧ t.st.mmioActive ≠ ts.st.mmioActive) ∧
    (∃ t, exec (.seqPum1W 0x10) ts = .next t ∧ t.st.altPost ≠ ts.st.altPost) ∧
    (∃ t, exec (.seqaDataW 0x0C 0x10) ts = .next t ∧ t.st.altPost ≠ ts.st.altPost) ∧
    (∃ t, exec (.crPixdepthW 0x08) ts = .next t ∧ t.st.rgb32 ≠ ts.st.rgb32) ∧
    ∃ t, exec .reset (tc { c0 with newMode := true }) = .next t ∧ t.st.newMode ≠ true :=
  ⟨⟨_, rfl, by decide⟩, ⟨_, rfl, by decide⟩, ⟨_, rfl, by decide⟩, ⟨_, rfl, by decide⟩, ⟨_, rfl, by decide⟩,
    ⟨_, rfl, by decide⟩, ⟨_, rfl, by decide⟩, ⟨_, rfl, by decide⟩⟩

/-- Each bank changed by an operation of the table, separated and not. -/
theorem witness_BanksChangeOnlyAsListed :
    let a := tc { c0 with gcExtb := 0x04 }
    let b := tc { c0 with gcExtb := 0x05 }
    (∃ t, exec (.seqMc1W 0x1F) ts = .next t ∧ t.st.bankW ≠ ts.st.bankW ∧ t.st.bankR ≠ ts.st.bankR) ∧
    (∃ t, exec (.seqaDataW 0x0E 0x1F) ts = .next t ∧ t.st.bankR ≠ ts.st.bankR) ∧
    (∃ t, exec (.bankwW 0x1F) a = .next t ∧ t.st.bankW ≠ a.st.bankW ∧ t.st.bankR ≠ a.st.bankR) ∧
    (∃ t, exec .reset (tc { c0 with bankW := 2, bankR := 2 }) = .next t ∧ t.st.bankR ≠ 2) ∧
    (∃ t, exec (.gcExtaW 0x1F) b = .next t ∧ t.st.bankR ≠ b.st.bankR) ∧
    ∃ t, exec (.bankrW 0x1F) b = .next t ∧ t.st.bankR ≠ b.st.bankR :=
  ⟨⟨_, rfl, by decide⟩, ⟨_, rfl, by decide⟩, ⟨_, rfl, by decide⟩, ⟨_, rfl, by decide⟩, ⟨_, rfl, by decide⟩,
    ⟨_, rfl, by decide⟩⟩

theorem witness_ShadowCellsAreIndependent :
    (∃ t, exec (.seqMc1W 0x05) (tc { c0 with newMode := true }) = .next t ∧ t.st.mc1New ≠ c0.mc1New) ∧
    (∃ t, exec (.seqMc2W 0x11) ts = .next t ∧ t.st.mc2Old ≠ c0.mc2Old) ∧
    (∃ t, exec .seqUnlockR ts = .next t ∧ t.st.newMode ≠ ts.st.newMode) ∧
    (∃ t, exec (.seqaDataR 0x0E) ts = .next t ∧ seqReg ts.params 0x0E = .mc1) ∧
    ∃ t, exec (.seqaDataR 0x0D) ts = .next t ∧ seqReg ts.params 0x0D = .mc2 :=
  ⟨⟨_, rfl, by decide⟩, ⟨_, rfl, by decide⟩, ⟨_, rfl, by decide⟩, ⟨_, rfl, by decide⟩, ⟨_, rfl, by decide⟩⟩

theorem witness_ReadsWithSideEffects :
    let a := tc { c0 with dacState := .arming, dacCount := 2 }
    (∃ t, isRead .dacCmdR = true ∧ exec .dacCmdR ts = .next t ∧ t.st ≠ ts.st) ∧
    (∃ t, isRead (.dacRstR .rst0) = true ∧ exec (.dacRstR .rst0) a = .next t ∧ t.st ≠ a.st) ∧
    ∃ t, isRead .seqUnlockR = true ∧ exec .seqUnlockR ts = .next t ∧ t.st ≠ ts.st :=
  ⟨⟨_, by decide, rfl, by decide⟩, ⟨_, by decide, rfl, by decide⟩, ⟨_, by decide, rfl, by decide⟩⟩

theorem witness_WritesAreIdempotent :
    (∃ t u, storageInv ts.params ts.host ∧ isRead (.crStdW 0x18 0x05) = false ∧ isDacCommand (.crStdW 0x18 0x05) = false ∧
      exec (.crStdW 0x18 0x05) ts = .next t ∧ exec (.crStdW 0x18 0x05) t = .next u ∧
      runsDecoder t (.crStdW 0x18 0x05) = true) ∧
    (∃ t u, storageInv ts.params ts.host ∧ isRead (.seqMc1W 0x05) = false ∧ isDacCommand (.seqMc1W 0x05) = false ∧
      exec (.seqMc1W 0x05) ts = .next t ∧ exec (.seqMc1W 0x05) t = .next u ∧ runsDecoder t (.seqMc1W 0x05) = false) ∧
    ∃ t, ts.st.dacState ≠ .active ∧ exec (.dacCmdW 0x01) ts = .next t :=
  ⟨⟨_, _, by decide, by decide, by decide, rfl, rfl, by decide⟩,
    ⟨_, _, by decide, by decide, by decide, rfl, rfl, by decide⟩, ⟨_, by decide, rfl⟩⟩

theorem witness_CommandByteOnlyWhileActive :
    let a := tc { c0 with dacState := .active, dacCount := 4 }
    let b := tc { c0 with dacCmd := 0x30 }
    (∃ t, exec (.dacCmdW 0x30) a = .next t ∧ t.st.dacCmd ≠ a.st.dacCmd) ∧
    ∃ t t', exec (.crPixdepthW 0x04) b = .next t ∧
      exec (.crPixdepthW 0x04) { b with st := { b.st with dacCmd := 0x3F } } = .next t' ∧
      ¬ ((Instr.crPixdepthW 0x04) = .dacCmdR ∧ b.st.dacState = .active) ∧
      (0x3F : Byte).toNat / 16 = b.st.dacCmd.toNat / 16 :=
  ⟨⟨_, rfl, by decide⟩, ⟨_, _, rfl, rfl, by decide, by decide⟩⟩

/-- Four command-port accesses, reads and writes, with another operation among them. -/
theorem witness_DacArmingSequence :
    let l : List Instr := [.dacCmdR, .dacCmdW 0x02, .seqMc1W 0x01, .dacCmdR, .dacCmdR]
    ts.st.dacState = .idle ∧ ts.st.dacCount = 0 ∧ (∀ i ∈ l, i ≠ .reset ∧ isDacReset i = false) ∧
    l.countP isDacCommand ≤ 4 ∧ l.countP isDacCommand = 4 ∧ ∃ t, execAll l ts = .next t :=
  ⟨by decide, by decide, by decide, by decide, by decide, ⟨_, rfl⟩⟩

theorem witness_HostAnswersNeverReachTheChip :
    let s₂ := { ts with answer := some 0x5A, host := { ts.host with seqIndex := 0x0E, startAddr := 7, vram := [(3, 0x11)] } }
    let l : List Instr := [.crStdW 0x11 0x00, .fbR 0x00003, .dacCmdR]
    ts.params = s₂.params ∧ ts.st = s₂.st ∧ ts.host.misc = s₂.host.misc ∧ ts.tlog = s₂.tlog ∧
    (∃ t, execAll l ts = .next t) ∧ ∃ t, execAll l s₂ = .next t :=
  ⟨by decide, by decide, by decide, by decide, ⟨_, rfl⟩, ⟨_, rfl⟩⟩

theorem witness_IndexRegistersAreTheHosts :
    ∃ t, exec (.crStdW 0x11 0x00) ts = .next t ∧ ∀ p v, t.calls ≠ ts.calls ++ [.portWrite p v] :=
  ⟨_, rfl, fun _ _ h => nomatch List.cons.inj h⟩

end Sys2Proof.Tests
end

section
/-! The dual registers' cells (10_state.md R23): which operations write a cell of mode control 1 or 2, and what their reads show. -/

namespace Sys2Proof.Machine

variable {i : Instr} {s t : State}

/-- The four cells of the two dual registers are the same in both chip states. -/
structure SameDualCells (c d : Chip) : Prop where
  mc1Old : d.mc1Old = c.mc1Old
  mc2Old : d.mc2Old = c.mc2Old
  mc1New : d.mc1New = c.mc1New
  mc2New : d.mc2New = c.mc2New

/-- The mode is the same in both chip states, and so are the two cells it does not select. -/
structure SameUnselectedCells (c d : Chip) : Prop where
  newMode : d.newMode = c.newMode
  old : c.newMode = true → d.mc1Old = c.mc1Old ∧ d.mc2Old = c.mc2Old
  new : c.newMode = false → d.mc1New = c.mc1New ∧ d.mc2New = c.mc2New

/-! ### The two registers' own operations -/

/-- A mode-control-1 write stores into the cell the mode selects (R118). -/
theorem execSeqMc1W_sameUnselectedCells {v : Byte} (h : execSeqMc1W v s = .next t) :
    SameUnselectedCells s.st t.st := by
  obtain rfl := chipWrite_next h
  cases hm : s.st.newMode <;> constructor <;> simp [writeBank_frame, hm]

/-- A mode-control-2 write stores into the cell the mode selects; the decode pass after it reaches no cell (R116). -/
theorem execSeqMc2W_sameUnselectedCells {v : Byte} (h : execSeqMc2W v s = .next t) :
    SameUnselectedCells s.st t.st := by
  rw [execSeqMc2W] at h
  split at h
  next hm =>
    obtain rfl := yieldsNothing_next h
    exact ⟨rfl, fun _ => ⟨rfl, rfl⟩, fun ho => by simp [hm] at ho⟩
  next hm =>
    obtain rfl := chipWrite_next h
    exact ⟨rfl, fun hn => absurd hn hm, fun _ => ⟨rfl, rfl⟩⟩

/-- A mode-control-1 read answers the selected cell (R117). -/
theorem execSeqMc1R_result (h : execSeqMc1R s = .next t) :
    t.result = some (if s.st.newMode then s.st.mc1New else s.st.mc1Old) := by
  rw [cellRead_next h]

/-- A mode-control-2 read answers the selected cell (R115). -/
theorem execSeqMc2R_result (h : execSeqMc2R s = .next t) :
    t.result = some (if s.st.newMode then s.st.mc2New else s.st.mc2Old) := by
  rw [cellRead_next h]

/-! ### The aliased data port is the data port (R109, R110) -/

/-- A read at the aliased data port runs the operation the data port's read decodes to. -/
theorem exec_seqaDataR (x v : Byte) (s : State) :
    exec (.seqaDataR x) s = exec (seqOp s.params false x v) s := by
  show execSeqaDataR x s = _
  rw [execSeqaDataR, seqOp]
  cases seqReg s.params x <;> rfl

/-- A write at the aliased data port runs the operation the data port's write decodes to. -/
theorem exec_seqaDataW (x v : Byte) (s : State) :
    exec (.seqaDataW x v) s = exec (seqOp s.params true x v) s := by
  show execSeqaDataW x v s = _
  rw [execSeqaDataW, seqOp]
  cases seqReg s.params x <;> rfl

/-! ### All operations -/

/-- An operation that chooses between two answers leaves the four cells alone when both do. -/
theorem sameDualCells_of_ite {p : Prop} [Decidable p] {u w : State}
    (h : (if p then Host.Outcome.next u else .next w : Outcome) = .next t)
    (hu : SameDualCells s.st u.st) (hw : SameDualCells s.st w.st) : SameDualCells s.st t.st := by
  split at h <;> cases h <;> assumption

/-- Outside reset an operation leaves the four cells alone, or it is a write of one of the two registers, directly or through the aliased
data port. -/
theorem exec_sameDualCells_or_write (h : exec i s = .next t) (hr : i ≠ .reset) :
    SameDualCells s.st t.st ∨ (∃ v, execSeqMc1W v s = .next t) ∨ ∃ v, execSeqMc2W v s = .next t := by
  cases i with
  | reset => exact absurd rfl hr
  | seqMc1W v => exact .inr (.inl ⟨v, h⟩)
  | seqMc2W v => exact .inr (.inr ⟨v, h⟩)
  | seqaDataR x =>
    rw [exec_seqaDataR x 0, seqOp] at h
    cases hx : seqReg s.params x <;> rw [hx] at h <;> cases h <;> exact .inl ⟨rfl, rfl, rfl, rfl⟩
  | seqaDataW x v =>
    rw [exec_seqaDataW, seqOp] at h
    cases hx : seqReg s.params x <;> rw [hx] at h
    case mc1 => exact .inr (.inl ⟨v, h⟩)
    case mc2 => exact .inr (.inr ⟨v, h⟩)
    all_goals cases h; exact .inl ⟨rfl, rfl, rfl, rfl⟩
  | bankwW v => exact .inl (sameDualCells_of_ite h ⟨rfl, rfl, rfl, rfl⟩ ⟨rfl, rfl, rfl, rfl⟩)
  | bankrW v => exact .inl (sameDualCells_of_ite h ⟨rfl, rfl, rfl, rfl⟩ ⟨rfl, rfl, rfl, rfl⟩)
  | dacCmdR => exact .inl (sameDualCells_of_ite h ⟨rfl, rfl, rfl, rfl⟩ ⟨rfl, rfl, rfl, rfl⟩)
  | dacCmdW v => exact .inl (sameDualCells_of_ite h ⟨rfl, rfl, rfl, rfl⟩ ⟨rfl, rfl, rfl, rfl⟩)
  | fbR o => exact .inl (sameDualCells_of_ite h ⟨rfl, rfl, rfl, rfl⟩ ⟨rfl, rfl, rfl, rfl⟩)
  | fbW o v => exact .inl (sameDualCells_of_ite h ⟨rfl, rfl, rfl, rfl⟩ ⟨rfl, rfl, rfl, rfl⟩)
  | _ => cases h; exact .inl ⟨rfl, rfl, rfl, rfl⟩  -- one record update, which names none of the four cells

/-- Outside reset an operation leaves the four cells alone, or it leaves the mode and the cells it does not select alone (R23). -/
theorem exec_sameDualCells_or_sameUnselectedCells (h : exec i s = .next t) (hr : i ≠ .reset) :
    SameDualCells s.st t.st ∨ SameUnselectedCells s.st t.st := by
  rcases exec_sameDualCells_or_write h hr with hs | ⟨v, hw⟩ | ⟨v, hw⟩
  · exact .inl hs
  · exact .inr (execSeqMc1W_sameUnselectedCells hw)
  · exact .inr (execSeqMc2W_sameUnselectedCells hw)

theorem exec_keeps_old_in_newMode (h : exec i s = .next t) (hr : i ≠ .reset) (hm : s.st.newMode = true) :
    t.st.mc1Old = s.st.mc1Old ∧ t.st.mc2Old = s.st.mc2Old := by
  rcases exec_sameDualCells_or_sameUnselectedCells h hr with hs | hs
  · exact ⟨hs.mc1Old, hs.mc2Old⟩
  · exact hs.old hm

theorem exec_keeps_new_in_oldMode (h : exec i s = .next t) (hr : i ≠ .reset) (hm : s.st.newMode = false) :
    t.st.mc1New = s.st.mc1New ∧ t.st.mc2New = s.st.mc2New := by
  rcases exec_sameDualCells_or_sameUnselectedCells h hr with hs | hs
  · exact ⟨hs.mc1New, hs.mc2New⟩
  · exact hs.new hm

/-- A change of mode copies no cell: the writes of the two registers are the only ones to change a cell, and they keep the mode. -/
theorem sameDualCells_of_newMode_ne (h : exec i s = .next t) (hr : i ≠ .reset)
    (hm : t.st.newMode ≠ s.st.newMode) : SameDualCells s.st t.st := by
  rcases exec_sameDualCells_or_sameUnselectedCells h hr with hs | hs
  · exact hs
  · exact absurd hs.newMode hm

/-- Settles O54: the clauses on cells come from the case analysis over all operations, those on reads from the registers' own read rules,
to which the aliased data port's reads come by `exec_seqaDataR`. -/
theorem shadowCellsAreIndependent : Obligations.ShadowCellsAreIndependent := by
  intro i s t h
  refine ⟨exec_keeps_old_in_newMode h, exec_keeps_new_in_oldMode h, fun hr hm => ?_, ?_, ?_, ?_, ?_⟩
  · obtain ⟨h1, h2, h3, h4⟩ := sameDualCells_of_newMode_ne h hr hm
    exact ⟨h1, h2, h3, h4⟩
  · rintro rfl
    exact execSeqMc1R_result h
  · rintro rfl
    exact execSeqMc2R_result h
  · rintro x rfl hx
    rw [exec_seqaDataR x 0, seqOp, hx] at h
    exact execSeqMc1R_result h
  · rintro x rfl hx
    rw [exec_seqaDataR x 0, seqOp, hx] at h
    exact execSeqMc2R_result h

end Sys2Proof.Machine
end

section
/-! Port accesses (30_encoding.md R72, R75): which operation an index byte selects at a group data port under a legal parameter set, and where
the index byte comes from. -/

namespace Sys2Proof.Machine

variable {P : Params} {misc : Byte} {p : Port} {w : Bool} {i v : Byte}

/-! ### The port tests at the group data ports (R74)

No two claimed ports are equal, so a group data port fails every test before its own. -/

/-- A group data port is none of the ports tested before it; so the aliased sequencer data port, tested second, is not the first one. -/
structure GroupPortsDistinct (P : Params) (misc : Byte) : Prop where
  seq_ne : some P.pSeqData ≠ P.pSeqAliasData
  crtc_ne : crtcDataPort P misc ≠ P.pSeqData ∧ some (crtcDataPort P misc) ≠ P.pSeqAliasData ∧
    some (crtcDataPort P misc) ≠ P.pSeqAliasIndex
  gc_ne : P.pGcData ≠ P.pSeqData ∧ some P.pGcData ≠ P.pSeqAliasData ∧ some P.pGcData ≠ P.pSeqAliasIndex ∧
    P.pGcData ≠ crtcDataPort P misc ∧ P.pGcData ≠ bankWPort P misc ∧ P.pGcData ≠ bankRPort P misc

theorem groupPortsDistinct_of_legal (h : paramsLegal P = true) (misc : Byte) : GroupPortsDistinct P misc := by
  have hn := claimedPorts_nodup h misc
  simp only [claimedPorts, List.cons_append, List.nil_append, List.nodup_cons, List.mem_cons,
    List.mem_append, Option.mem_toList, not_or] at hn
  obtain ⟨⟨seq_gc, -, -, -, -, seq_crtc, -, -, -, seq_aliasData⟩,
    ⟨-, -, -, -, gc_crtc, gc_bankW, gc_bankR, gc_aliasIndex, gc_aliasData⟩, -, -, -, -,
    ⟨-, -, crtc_aliasIndex, crtc_aliasData⟩, -⟩ := hn
  exact ⟨Ne.symm seq_aliasData,
    ⟨Ne.symm seq_crtc, Ne.symm crtc_aliasData, Ne.symm crtc_aliasIndex⟩,
    ⟨Ne.symm seq_gc, Ne.symm gc_aliasData, Ne.symm gc_aliasIndex, gc_crtc, gc_bankW, gc_bankR⟩⟩

theorem portClass_seqData : portClass P misc P.pSeqData = .seqData :=
  if_pos rfl

theorem portClass_seqAliasData (h : paramsLegal P = true) (hp : some p = P.pSeqAliasData) :
    portClass P misc p = .seqAliasData := by
  have hne : p ≠ P.pSeqData := fun hs => (groupPortsDistinct_of_legal h misc).seq_ne (hs ▸ hp)
  rw [portClass, if_neg hne, if_pos hp]

theorem portClass_crtcData (h : paramsLegal P = true) :
    portClass P misc (crtcDataPort P misc) = .crtcData := by
  simp [portClass, (groupPortsDistinct_of_legal h misc).crtc_ne]

theorem portClass_gcData (h : paramsLegal P = true) : portClass P misc P.pGcData = .gcData := by
  simp [portClass, (groupPortsDistinct_of_legal h misc).gc_ne]

/-! ### The index tests of the three groups (R75)

A named index lies above its group's threshold and differs from the other names, so it fails every test before its own. -/

/-- A legal index list, in the form the tests are made in: each name fails the threshold test and the test of every name before it. -/
theorem indicesLegal_tests {threshold : Byte} {named : List Byte} (h : indicesLegal threshold named) :
    (∀ i ∈ named, ¬ i ≤ threshold) ∧ named.Pairwise (fun a b => b ≠ a) :=
  ⟨fun i hi => BitVec.not_le.2 (h.2 i hi), h.1.imp Ne.symm⟩

/-- The sequencer dispatch, index by index (R94, R95). -/
theorem seqOp_of_index (h : paramsLegal P = true) :
    (i ≤ P.seqStdMax → seqOp P w i v = if w then .seqStdW i v else .seqStdR i) ∧
    (i = P.seqUnlock → seqOp P w i v = if w then .seqUnlockW v else .seqUnlockR) ∧
    (i = P.seqPum1 → seqOp P w i v = if w then .seqPum1W v else .seqPum1R) ∧
    (i = P.seqMc2 → seqOp P w i v = if w then .seqMc2W v else .seqMc2R) ∧
    (i = P.seqMc1 → seqOp P w i v = if w then .seqMc1W v else .seqMc1R) ∧
    (i = P.seqPum2 → seqOp P w i v = if w then .seqPum2W v else .seqPum2R) ∧
    (unknownIndex P.seqStdMax (seqNamed P) i →
      seqOp P w i v = if w then .seqUnkW i v else .seqUnkR i) := by
  obtain ⟨-, -, hi, -⟩ := (paramsLegal_iff P).1 h
  obtain ⟨hstd, hne⟩ := indicesLegal_tests hi
  simp only [seqNamed, List.forall_mem_cons, List.pairwise_cons] at hstd hne
  refine ⟨fun hi => ?std, ?_, ?_, ?_, ?_, ?_, fun ⟨hgt, hnot⟩ => ?unk⟩
  case std => simp [seqOp, seqReg, hi]
  case unk =>
    simp only [seqNamed, List.mem_cons, not_or] at hnot
    simp [seqOp, seqReg, BitVec.not_le.2 hgt, hnot]
  all_goals
    rintro rfl
    simp [seqOp, seqReg, hstd, hne]

/-- The CRTC dispatch, index by index (R99, R100). -/
theorem crtcOp_of_index (h : paramsLegal P = true) :
    (i ≤ P.crtcStdMax → crtcOp P w i v = if w then .crStdW i v else .crStdR i) ∧
    (i = P.crModtest → crtcOp P w i v = if w then .crModtestW v else .crModtestR) ∧
    (i = P.crSwprog → crtcOp P w i v = if w then .crSwprogW v else .crSwprogR) ∧
    (i = P.crLinap → crtcOp P w i v = if w then .crLinapW v else .crLinapR) ∧
    (i = P.crStarthi → crtcOp P w i v = if w then .crStarthiW v else .crStarthiR) ∧
    (i = P.crOffext → crtcOp P w i v = if w then .crOffextW v else .crOffextR) ∧
    (i = P.crPixdepth → crtcOp P w i v = if w then .crPixdepthW v else .crPixdepthR) ∧
    (i = P.crMmio → crtcOp P w i v = if w then .crMmioW v else .crMmioR) ∧
    (some i = P.crFinal → crtcOp P w i v = if w then .crFinalW v else .crFinalR) ∧
    (unknownIndex P.crtcStdMax (crtcNamed P) i →
      crtcOp P w i v = if w then .crUnkW i v else .crUnkR i) := by
  obtain ⟨-, -, -, hi, -⟩ := (paramsLegal_iff P).1 h
  obtain ⟨hstd, hne⟩ := indicesLegal_tests hi
  simp only [crtcNamed, List.cons_append, List.nil_append, List.forall_mem_cons,
    List.pairwise_cons] at hstd hne
  refine ⟨fun hi => ?std, ?_, ?_, ?_, ?_, ?_, ?_, ?_, fun hf => ?final, fun ⟨hgt, hnot⟩ => ?unk⟩
  case std => simp [crtcOp, hi]
  case final =>
    simp only [← hf, Option.toList_some, List.forall_mem_cons] at hstd hne
    simp [crtcOp, ← hf, hstd, hne]
  case unk =>
    simp only [crtcNamed, List.cons_append, List.nil_append, List.mem_cons, Option.mem_toList,
      not_or, eq_comm (a := P.crFinal)] at hnot
    simp [crtcOp, BitVec.not_le.2 hgt, hnot]
  all_goals
    rintro rfl
    simp [crtcOp, hstd, hne]

/-- The graphics-controller dispatch, index by index (R103, R104). -/
theorem gcOp_of_index (h : paramsLegal P = true) :
    (i ≤ P.gcStdMax → gcOp P w i v = if w then .gcStdW i v else .gcStdR i) ∧
    (i = P.gcExta → gcOp P w i v = if w then .gcExtaW v else .gcExtaR) ∧
    (i = P.gcExtb → gcOp P w i v = if w then .gcExtbW v else .gcExtbR) ∧
    (i = P.gcMisc → gcOp P w i v = if w then .gcMiscW v else .gcMiscR) ∧
    (unknownIndex P.gcStdMax (gcNamed P) i →
      gcOp P w i v = if w then .gcUnkW i v else .gcUnkR i) := by
  obtain ⟨-, -, -, -, hi, -⟩ := (paramsLegal_iff P).1 h
  obtain ⟨hstd, hne⟩ := indicesLegal_tests hi
  simp only [gcNamed, List.forall_mem_cons, List.pairwise_cons] at hstd hne
  refine ⟨fun hi => ?std, ?_, ?_, ?_, fun ⟨hgt, hnot⟩ => ?unk⟩
  case std => simp [gcOp, hi]
  case unk =>
    simp only [gcNamed, List.mem_cons, not_or] at hnot
    simp [gcOp, BitVec.not_le.2 hgt, hnot]
  all_goals
    rintro rfl
    simp [gcOp, hstd, hne]

/-- A port access's key decodes to the operation of its port (the I/O half of R74). -/
theorem decodeKey_ioKey (P : Params) (misc : Byte) (w : Bool) (p : Port) (i v : Byte) :
    decodeKey P misc (mkKey (if w then 1 else 0) 0 (ioAddr p) i v) = .op (portOp P misc w p i v) := by
  cases w <;> simp [decodeKey]

/-- Settles O5: the key decodes to the operation of its port, the port passes the test of its group, and the index passes one test of
that group's dispatch. -/
theorem groupIndexSelectsRegister : Obligations.GroupIndexSelectsRegister := by
  intro P misc w i v h
  simpa only [decodeKey_ioKey, portOp, portClass_seqData, portClass_crtcData h, portClass_gcData h,
    Decoded.op.injEq, and_assoc] using
    And.intro (seqOp_of_index h) (And.intro (crtcOp_of_index h) (gcOp_of_index h))

/-! ### The index byte of a port access (R72) -/

/-- The index byte of a port request's key. -/
theorem keyIdx_requestKey (P : Params) (h : HostSide) {r : BusRequest} (hr : r.kind = 0 ∨ r.kind = 1) :
    keyIdx (requestKey P h r) = idxOf P h (requestPort r) := by
  rw [requestKey, keyIdx_mkKey, if_pos (by simpa [isPortRequest] using hr)]

/-- A port that is no group data port gets the index byte 0: none of the classes left has an index register. -/
theorem idxOf_of_not_groupPort {h : HostSide} (hseq : p ≠ P.pSeqData) (halias : some p ≠ P.pSeqAliasData)
    (hcrtc : p ≠ crtcDataPort P h.misc) (hgc : p ≠ P.pGcData) : idxOf P h p = 0 := by
  rw [idxOf, portClass, if_neg hseq, if_neg halias, if_neg hcrtc, if_neg hgc]
  split_ifs <;> rfl

/-- Settles O6: `idxOf` at each group data port, by the class of the port. -/
theorem indexByteComesFromTheHost : Obligations.IndexByteComesFromTheHost := by
  intro P h r hl hr
  dsimp only
  rw [keyIdx_requestKey P h hr]
  refine ⟨?_, fun hc => ?_, fun hg => ?_, idxOf_of_not_groupPort⟩
  · rintro (hs | ha)
    · rw [hs, idxOf, portClass_seqData]
    · rw [idxOf, portClass_seqAliasData hl ha]
  · rw [hc, idxOf, portClass_crtcData hl]
  · rw [hg, idxOf, portClass_gcData hl]

end Sys2Proof.Machine
end

section
/-! The result of a transaction (30_encoding.md R71): the operations that answer a byte are the reads, and the kinds of key that spell a read
are the port read and the window read. -/

namespace Sys2Proof.Machine

variable {P : Params} {misc : Byte} {i : Instr} {s t : State}

/-! ### Reads answer a byte, and no other operation does -/

/-- An operation that chooses between two answers yields a byte, or yields none, when both do. -/
theorem result_isSome_of_ite {c : Prop} [Decidable c] {u w : State} {b : Bool}
    (h : (if c then Host.Outcome.next u else .next w : Outcome) = .next t)
    (hu : u.result.isSome = b) (hw : w.result.isSome = b) : t.result.isSome = b := by
  split at h <;> cases h <;> assumption

/-- An operation yields a byte exactly when it is a read (R71). -/
theorem exec_result_isSome (h : exec i s = .next t) : t.result.isSome = isRead i := by
  cases i with
  | seqMc2W v => exact result_isSome_of_ite h rfl rfl
  | seqaDataR x =>
    rw [exec_seqaDataR x 0, seqOp] at h
    cases hx : seqReg s.params x <;> rw [hx] at h <;> cases h <;> rfl
  | seqaDataW x v =>
    rw [exec_seqaDataW, seqOp] at h
    cases hx : seqReg s.params x <;> rw [hx] at h
    case mc2 => exact result_isSome_of_ite h rfl rfl
    all_goals cases h; rfl
  | bankwW v => exact result_isSome_of_ite h rfl rfl
  | bankrW v => exact result_isSome_of_ite h rfl rfl
  | dacCmdR => exact result_isSome_of_ite h rfl rfl
  | dacCmdW v => exact result_isSome_of_ite h rfl rfl
  | fbR o => exact result_isSome_of_ite h rfl rfl
  | fbW o v => exact result_isSome_of_ite h rfl rfl
  | _ => cases h; rfl  -- one record update, which ends in `yields` or in `yieldsNothing`

/-! ### The keys that spell a read -/

/-- An operation chosen by the direction of the access is a read exactly when the access does not write. -/
theorem isRead_ite {w : Bool} {a b : Instr} (ha : isRead a = false) (hb : isRead b = true) :
    isRead (if w then a else b) = !w := by
  cases w <;> assumption

/-- One test of a dispatch: when the operations on both sides agree on being reads, so does the one chosen. -/
theorem isRead_test {c : Prop} [Decidable c] {a b : Instr} {r : Bool} (ha : isRead a = r)
    (hb : isRead b = r) : isRead (if c then a else b) = r := by
  split <;> assumption

theorem isRead_seqOp (P : Params) (w : Bool) (i v : Byte) : isRead (seqOp P w i v) = !w := by
  rw [seqOp]
  split <;> exact isRead_ite rfl rfl

theorem isRead_crtcOp (P : Params) (w : Bool) (i v : Byte) : isRead (crtcOp P w i v) = !w := by
  rw [crtcOp]
  iterate 9 refine isRead_test (isRead_ite rfl rfl) ?_
  exact isRead_ite rfl rfl

theorem isRead_gcOp (P : Params) (w : Bool) (i v : Byte) : isRead (gcOp P w i v) = !w := by
  rw [gcOp]
  iterate 4 refine isRead_test (isRead_ite rfl rfl) ?_
  exact isRead_ite rfl rfl

/-- The operation of a port access is a read exactly when the access does not write (R74). -/
theorem isRead_portOp (P : Params) (misc : Byte) (w : Bool) (p : Port) (i v : Byte) :
    isRead (portOp P misc w p i v) = !w := by
  rw [portOp]
  cases portClass P misc p with
  | seqData => exact isRead_seqOp ..
  | crtcData => exact isRead_crtcOp ..
  | gcData => exact isRead_gcOp ..
  | _ => exact isRead_ite rfl rfl

/-- A key that decodes to an operation has one of the five kinds of R70, and the operation is a read exactly at the kinds IOR and FBR. -/
theorem keyKind_of_decodeKey {k : Key} (h : decodeKey P misc k = .op i) :
    keyKind k < 5 ∧ (isRead i = true ↔ keyKind k = 0 ∨ keyKind k = 2) := by
  rw [decodeKey] at h
  split_ifs at h with hz h5 h4 h2 h3 hio
  all_goals cases h
  all_goals refine ⟨BitVec.not_le.1 h5, ?_⟩
  · simp [isRead, h4]
  · simp [isRead, h2]
  · simp [isRead, h3]
  · rw [isRead_portOp]
    generalize keyKind k = kind at *
    revert kind
    decide

/-! ### The step -/

/-- A step with a transaction pending that answers a next state decoded its key and ran the operation (R72, R74). -/
theorem step_access_next {r : BusRequest} {rest : List HostEvent} (hp : s.pending = .access r :: rest)
    (h : step s = .next t) :
    ∃ i, decodeKey s.params s.host.misc (requestKey s.params s.host r) = .op i ∧
      exec i (s.begin r rest) = .next t := by
  rw [step, hp] at h
  dsimp only at h
  split at h
  · split at h
    next i hi => exact ⟨i, hi, h⟩
    next => cases h
  · cases h

theorem keyKind_requestKey (P : Params) (h : HostSide) (r : BusRequest) :
    keyKind (requestKey P h r) = r.kind :=
  keyKind_mkKey ..

/-- Settles O51: the step ran the operation its key decodes to, which answers a byte exactly when it is a read. -/
theorem resultExactlyForReads : Obligations.ResultExactlyForReads := by
  intro s t r rest hp h
  obtain ⟨i, hd, he⟩ := step_access_next hp h
  obtain ⟨h5, hread⟩ := keyKind_of_decodeKey hd
  rw [keyKind_requestKey] at h5 hread
  have hres : t.result.isSome = true ↔ r.kind = 0 ∨ r.kind = 2 := by
    rw [exec_result_isSome he, hread]
  have hkinds : ∀ k : BitVec 3, k < 5 → (¬ (k = 0 ∨ k = 2) ↔ k = 1 ∨ k = 3 ∨ k = 4) := by decide
  refine ⟨hres, ?_⟩
  rw [← hkinds r.kind h5, ← hres, Option.not_isSome_iff_eq_none]

end Sys2Proof.Machine
end

section
/-! Reads of the sequencer cells and accesses at unknown indices (41_seq_regs.md; 40_dispatch.md R96): which operation a key at a group data
port spells, and what the operation answers. -/

namespace Sys2Proof.Machine

variable {P : Params} {misc : Byte} {i v : Byte} {s : State}

/-! ### The answer of a cell's read and of an unknown index -/

/-- A cell's read answers the byte and changes nothing else (R22). -/
theorem cellRead_eq (b : Byte) (s : State) : cellRead b s = .next { s with result := some b } := rfl

/-- The sentinel, with no other effect (R96). -/
theorem unknownRead_eq (s : State) : unknownRead s = .next { s with result := some 0xFF } := rfl

/-- No effect but the end of the transaction (R96). -/
theorem unknownWrite_eq (s : State) : unknownWrite s = .next { s with result := none } := rfl

/-- Mode control 2 is read from the cell the mode selects (R115). -/
theorem exec_seqMc2R (s : State) :
    exec .seqMc2R s = .next { s with result := some (if s.st.newMode then s.st.mc2New else s.st.mc2Old) } :=
  cellRead_eq _ s

/-- Mode control 1 is read from the cell the mode selects, with no second inversion (R117). -/
theorem exec_seqMc1R (s : State) :
    exec .seqMc1R s = .next { s with result := some (if s.st.newMode then s.st.mc1New else s.st.mc1Old) } :=
  cellRead_eq _ s

/-! ### Keys at the group data ports (R74, R75) -/

/-- A key at the sequencer data port spells the operation of the sequencer dispatch; no other port is tested before it. -/
theorem decodeKey_seqData (w : Bool) :
    decodeKey P misc (mkKey (if w then 1 else 0) 0 (ioAddr P.pSeqData) i v) = .op (seqOp P w i v) := by
  rw [decodeKey_ioKey, portOp, portClass_seqData]

/-- A key at the CRTC data port spells the operation of the CRTC dispatch. -/
theorem decodeKey_crtcData (h : paramsLegal P = true) (w : Bool) :
    decodeKey P misc (mkKey (if w then 1 else 0) 0 (ioAddr (crtcDataPort P misc)) i v) =
      .op (crtcOp P w i v) := by
  rw [decodeKey_ioKey, portOp, portClass_crtcData h]

/-- A key at the graphics-controller data port spells the operation of that group's dispatch. -/
theorem decodeKey_gcData (h : paramsLegal P = true) (w : Bool) :
    decodeKey P misc (mkKey (if w then 1 else 0) 0 (ioAddr P.pGcData) i v) = .op (gcOp P w i v) := by
  rw [decodeKey_ioKey, portOp, portClass_gcData h]

/-- The key of a read at the sequencer data port spells what the dispatch gives under a legal parameter set. -/
theorem spells_seqRead {op : Instr} (h : paramsLegal s.params = true → seqOp s.params false i 0 = op) :
    spells s (ioReadKey s.params.pSeqData i) op :=
  fun hl => h hl ▸ decodeKey_seqData false

/-! ### Keys at an unknown index

An index above its group's threshold that bears no name fails every test of the group's dispatch. -/

theorem decodeKey_seqData_unknown (h : paramsLegal P = true)
    (hu : unknownIndex P.seqStdMax (seqNamed P) i) (w : Bool) :
    decodeKey P misc (mkKey (if w then 1 else 0) 0 (ioAddr P.pSeqData) i v) =
      .op (if w then .seqUnkW i v else .seqUnkR i) := by
  obtain ⟨-, -, -, -, -, -, unk⟩ := seqOp_of_index (w := w) (i := i) (v := v) h
  rw [decodeKey_seqData, unk hu]

theorem decodeKey_crtcData_unknown (h : paramsLegal P = true)
    (hu : unknownIndex P.crtcStdMax (crtcNamed P) i) (w : Bool) :
    decodeKey P misc (mkKey (if w then 1 else 0) 0 (ioAddr (crtcDataPort P misc)) i v) =
      .op (if w then .crUnkW i v else .crUnkR i) := by
  obtain ⟨-, -, -, -, -, -, -, -, -, unk⟩ := crtcOp_of_index (w := w) (i := i) (v := v) h
  rw [decodeKey_crtcData h, unk hu]

theorem decodeKey_gcData_unknown (h : paramsLegal P = true)
    (hu : unknownIndex P.gcStdMax (gcNamed P) i) (w : Bool) :
    decodeKey P misc (mkKey (if w then 1 else 0) 0 (ioAddr P.pGcData) i v) =
      .op (if w then .gcUnkW i v else .gcUnkR i) := by
  obtain ⟨-, -, -, -, unk⟩ := gcOp_of_index (w := w) (i := i) (v := v) h
  rw [decodeKey_gcData h, unk hu]

/-! ### The two statements -/

/-- Settles O17: each key passes its register's test in the sequencer dispatch, and each operation is the read of one cell, of a dual
register the cell the mode selects. -/
theorem sequencerCellReads : Obligations.SequencerCellReads := by
  intro s
  have dispatch (i : Byte) (hl : paramsLegal s.params = true) :=
    seqOp_of_index (w := false) (i := i) (v := 0) hl
  refine ⟨spells_seqRead fun hl => ?pum1, cellRead_eq _ s,
    spells_seqRead fun hl => ?mc2, fun hm => by rw [exec_seqMc2R, hm]; rfl, fun hm => by rw [exec_seqMc2R, hm]; rfl,
    spells_seqRead fun hl => ?mc1, fun hm => by rw [exec_seqMc1R, hm]; rfl, fun hm => by rw [exec_seqMc1R, hm]; rfl,
    spells_seqRead fun hl => ?pum2, cellRead_eq _ s⟩
  case pum1 =>
    obtain ⟨-, -, pum1, -⟩ := dispatch s.params.seqPum1 hl
    exact pum1 rfl
  case mc2 =>
    obtain ⟨-, -, -, mc2, -⟩ := dispatch s.params.seqMc2 hl
    exact mc2 rfl
  case mc1 =>
    obtain ⟨-, -, -, -, mc1, -⟩ := dispatch s.params.seqMc1 hl
    exact mc1 rfl
  case pum2 =>
    obtain ⟨-, -, -, -, -, pum2, -⟩ := dispatch s.params.seqPum2 hl
    exact pum2 rfl

/-- Settles O21: each key falls through its group's dispatch, and the six operations are the two shared ones of an unknown index. -/
theorem unknownIndexAccesses : Obligations.UnknownIndexAccesses := by
  intro s i v
  exact ⟨
    fun hu => ⟨fun hl => decodeKey_seqData_unknown hl hu false, fun hl => decodeKey_seqData_unknown hl hu true⟩,
    fun hu => ⟨fun hl => decodeKey_crtcData_unknown hl hu false, fun hl => decodeKey_crtcData_unknown hl hu true⟩,
    fun hu => ⟨fun hl => decodeKey_gcData_unknown hl hu false, fun hl => decodeKey_gcData_unknown hl hu true⟩,
    unknownRead_eq s, unknownRead_eq s, unknownRead_eq s,
    unknownWrite_eq s, unknownWrite_eq s, unknownWrite_eq s⟩

end Sys2Proof.Machine
end

section
/-! Reads of the CRTC cells (42_crtc_regs.md): the key of each cell's read, the byte it answers, and when CR_FINAL has a key at all. -/

namespace Sys2Proof.Machine

variable {P : Params} {misc : Byte} {p : Port} {w : Bool} {i v : Byte} {s : State}

/-- The key of a read at the CRTC data port spells what the dispatch gives under a legal parameter set. -/
theorem spells_crtcRead {op : Instr} (h : paramsLegal s.params = true → crtcOp s.params false i 0 = op) :
    spells s (ioReadKey (crtcDataPort s.params s.host.misc) i) op :=
  fun hl => h hl ▸ decodeKey_crtcData hl false

/-! ### An unset CR_FINAL has no key (R144, R236)

Only the last test of the CRTC dispatch chooses CR_FINAL's operations, and no index equals an unset parameter. -/

/-- One test of a dispatch: when neither side is a given answer, the one chosen is not. -/
theorem ite_ne {α : Type} {c : Prop} [Decidable c] {a b x : α} (ha : a ≠ x) (hb : b ≠ x) :
    (if c then a else b) ≠ x := by
  split <;> assumption

theorem seqOp_ne_crFinalR : seqOp P w i v ≠ .crFinalR := by
  rw [seqOp]
  split <;> exact ite_ne nofun nofun

theorem gcOp_ne_crFinalR : gcOp P w i v ≠ .crFinalR := by
  rw [gcOp]
  iterate 4 refine ite_ne (ite_ne nofun nofun) ?_
  exact ite_ne nofun nofun

/-- The CRTC dispatch chooses CR_FINAL's read only at CR_FINAL's index. -/
theorem crtcOp_ne_crFinalR (hf : some i ≠ P.crFinal) : crtcOp P w i v ≠ .crFinalR := by
  rw [crtcOp, if_neg hf]
  iterate 8 refine ite_ne (ite_ne nofun nofun) ?_
  exact ite_ne nofun nofun

/-- Of the port classes only the CRTC data port has CR_FINAL's read, by the CRTC dispatch. -/
theorem portOp_ne_crFinalR (hf : some i ≠ P.crFinal) : portOp P misc w p i v ≠ .crFinalR := by
  rw [portOp]
  cases portClass P misc p with
  | seqData => exact seqOp_ne_crFinalR
  | crtcData => exact crtcOp_ne_crFinalR hf
  | gcData => exact gcOp_ne_crFinalR
  | _ => exact ite_ne nofun nofun

/-- A key whose index byte is not CR_FINAL's index does not spell CR_FINAL's read; the other kinds of key have no register's operation. -/
theorem decodeKey_ne_crFinalR {k : Key} (hf : some (keyIdx k) ≠ P.crFinal) :
    decodeKey P misc k ≠ .op .crFinalR := by
  have hport : Decoded.op (portOp P misc (keyKind k = 1) (keyPort k) (keyIdx k) (keyData k)) ≠ .op .crFinalR :=
    fun h => portOp_ne_crFinalR hf (Decoded.op.inj h)
  rw [decodeKey]
  iterate 6 refine ite_ne nofun ?_
  exact hport

/-! ### The statement -/

/-- Settles O18: each key passes its own register's test in the CRTC dispatch, each operation is the read of one cell, and an unset CR_FINAL is no
key's index. -/
theorem crtcCellReads : Obligations.CrtcCellReads := by
  intro s
  refine ⟨spells_crtcRead fun hl => ?_, cellRead_eq _ s, spells_crtcRead fun hl => ?_, cellRead_eq _ s,
    spells_crtcRead fun hl => ?_, cellRead_eq _ s, spells_crtcRead fun hl => ?_, cellRead_eq _ s,
    spells_crtcRead fun hl => ?_, cellRead_eq _ s, spells_crtcRead fun hl => ?_, cellRead_eq _ s,
    fun f hf => spells_crtcRead fun hl => ?final, fun hf k => decodeKey_ne_crFinalR ?unset, cellRead_eq _ s⟩
  case final => simp [crtcOp_of_index hl, hf]
  case unset => simp [hf]
  all_goals simp [crtcOp_of_index hl]

end Sys2Proof.Machine
end

section
/-! Reads of the graphics-controller cells (43_gc_regs.md): the key of each cell's read and the byte it answers. -/

namespace Sys2Proof.Machine

variable {i : Byte} {s : State}

/-- The key of a read at the graphics-controller data port spells what the dispatch gives under a legal parameter set. -/
theorem spells_gcRead {op : Instr} (h : paramsLegal s.params = true → gcOp s.params false i 0 = op) :
    spells s (ioReadKey s.params.pGcData i) op :=
  fun hl => h hl ▸ decodeKey_gcData hl false

/-- Settles O19: each key passes its own register's test in the graphics-controller dispatch, and each operation is the read of one cell. -/
theorem gcCellReads : Obligations.GcCellReads := by
  intro s
  have dispatch (i : Byte) (hl : paramsLegal s.params = true) :=
    gcOp_of_index (w := false) (i := i) (v := 0) hl
  refine ⟨spells_gcRead fun hl => ?exta, cellRead_eq _ s, spells_gcRead fun hl => ?extb, cellRead_eq _ s,
    spells_gcRead fun hl => ?misc, cellRead_eq _ s⟩
  case exta =>
    obtain ⟨-, exta, -⟩ := dispatch s.params.gcExta hl
    exact exta rfl
  case extb =>
    obtain ⟨-, -, extb, -⟩ := dispatch s.params.gcExtb hl
    exact extb rfl
  case misc =>
    obtain ⟨-, -, -, misc, -⟩ := dispatch s.params.gcMisc hl
    exact misc rfl

end Sys2Proof.Machine
end

section
/-! The Mode Decoder (44_mode_decoder.md): what a decode pass reads as numbers, each of its outputs as an equation, and from them the rows of
the depth table and the pass repeated. -/

namespace Sys2Proof.Machine

variable {P : Params} {c c' : Chip}

/-! ### The fields a pass reads, as numbers -/

theorem field2_toNat (v : Byte) (n : Fin 7) : (field2 v n).toNat = v.toNat / 2 ^ n.val % 4 := by
  rw [field2, BitVec.extractLsb'_toNat, Nat.shiftRight_eq_div_pow]

/-- The 2-bit field is the code `d` when its number is. -/
theorem field2_eq_iff {v : Byte} {n : Fin 7} {d : BitVec 2} : field2 v n = d ↔ v.toNat / 2 ^ n.val % 4 = d.toNat := by
  rw [← BitVec.toNat_inj, field2_toNat]

/-- The high nibble of a byte is its quotient by 16: nothing stands above it. -/
theorem dacNibble_toNat (c : Chip) : (dacNibble c).toNat = c.dacCmd.toNat / 16 := by
  rw [dacNibble, BitVec.extractLsb'_toNat, Nat.shiftRight_eq_div_pow]
  have hbyte := c.dacCmd.isLt
  omega

theorem dacNibble_eq_iff {n : BitVec 4} : dacNibble c = n ↔ c.dacCmd.toNat / 16 = n.toNat := by
  rw [← BitVec.toNat_inj, dacNibble_toNat]

/-! ### The outputs of a pass (R179, R180) -/

section outputs
variable (P : Params) (c : Chip)
@[simp] theorem decodedChip_rgb8 : (decodedChip P c).rgb8 = (depthSelect P c == 0 && !suppressed P c) := rfl
@[simp] theorem decodedChip_rgb15 : (decodedChip P c).rgb15 = (depthSelect P c == 1 && dacNibble c != 3) := rfl
@[simp] theorem decodedChip_rgb16 : (decodedChip P c).rgb16 = (depthSelect P c == 1 && dacNibble c == 3) := rfl
@[simp] theorem decodedChip_rgb32 : (decodedChip P c).rgb32 = (depthSelect P c == 2) := rfl
@[simp] theorem decodedChip_pixelClock : (decodedChip P c).pixelClock = some (resolvedClock P c) := rfl
end outputs

/-! ### The depth table, one lemma for each depth-select code (R179) -/

/-- The four depth flags a pass leaves, in the order of the statement. -/
def decodedFlags (P : Params) (c : Chip) : Bool × Bool × Bool × Bool :=
  ((decodedChip P c).rgb8, (decodedChip P c).rgb15, (decodedChip P c).rgb16, (decodedChip P c).rgb32)

/-- At code 0 the suppression bit decides, and only on 8bpp. -/
theorem decodedFlags_of_code_zero (h : depthSelect P c = 0) :
    decodedFlags P c = (!suppressed P c, false, false, false) := by
  simp [decodedFlags, h]

/-- At code 1 the command byte's high nibble decides between 15bpp and 16bpp. -/
theorem decodedFlags_of_code_one (h : depthSelect P c = 1) :
    decodedFlags P c = (false, dacNibble c != 3, dacNibble c == 3, false) := by
  simp [decodedFlags, h]

theorem decodedFlags_of_code_two (h : depthSelect P c = 2) : decodedFlags P c = (false, false, false, true) := by
  simp [decodedFlags, h]

theorem decodedFlags_of_code_three (h : depthSelect P c = 3) : decodedFlags P c = (false, false, false, false) := by
  simp [decodedFlags, h]

/-- Settles O43: the number of the depth-select field picks the code's lemma, and within a code the suppression bit or the high nibble
picks the row. -/
theorem depthDecodeTable : Obligations.DepthDecodeTable := by
  intro P c d flags ds sup hn
  have code {k : BitVec 2} (h : ds = k.toNat) : depthSelect P c = k := field2_eq_iff.mpr h
  have nibble : dacNibble c = 3 ↔ hn = 3 := dacNibble_eq_iff
  refine ⟨fun h0 hs => ?shown, fun h0 hs => ?suppressed, fun h1 hc => ?rgb16, fun h1 hc => ?rgb15,
    fun h2 => decodedFlags_of_code_two (code h2), fun h3 => decodedFlags_of_code_three (code h3)⟩
  case shown =>
    have hsup : suppressed P c = false := hs
    exact (decodedFlags_of_code_zero (code h0)).trans (by rw [hsup]; rfl)
  case suppressed =>
    have hsup : suppressed P c = true := hs
    exact (decodedFlags_of_code_zero (code h0)).trans (by rw [hsup]; rfl)
  case rgb16 =>
    have hnib : dacNibble c = 3 := nibble.mpr hc
    exact (decodedFlags_of_code_one (code h1)).trans (by rw [hnib]; rfl)
  case rgb15 =>
    have hnib : (dacNibble c == 3) = false := beq_false_of_ne (mt nibble.mp hc)
    exact (decodedFlags_of_code_one (code h1)).trans (by rw [bne, hnib]; rfl)

/-! ### The clock table (R176) -/

/-- Settles O42: each index selects its entry of the list. -/
theorem clockTableEntries : Obligations.ClockTableEntries :=
  ⟨rfl, rfl, rfl, rfl, rfl, rfl, rfl, rfl, rfl, rfl, rfl, rfl, rfl, rfl, rfl, rfl⟩

/-! ### What a pass depends on, and the pass repeated (R183) -/

theorem depthSelect_congr (h : c.crPixdepth = c'.crPixdepth) : depthSelect P c = depthSelect P c' := by
  rw [depthSelect, h, depthSelect]

theorem suppressed_congr (h : c.crPixdepth = c'.crPixdepth) : suppressed P c = suppressed P c' := by
  rw [suppressed, h, suppressed]

theorem dacNibble_congr (h : c.dacCmd = c'.dacCmd) : dacNibble c = dacNibble c' := by
  rw [dacNibble, h, dacNibble]

theorem resolvedClock_congr (hi : c.clockIdx = c'.clockIdx) (hm : c.mc2New = c'.mc2New) :
    resolvedClock P c = resolvedClock P c' := by
  rw [resolvedClock, hi, hm, resolvedClock]

/-- A pass writes none of the fields it reads, so the next one resolves the same clock. -/
@[simp] theorem resolvedClock_decodedChip (P : Params) (c : Chip) :
    resolvedClock P (decodedChip P c) = resolvedClock P c :=
  resolvedClock_congr rfl rfl

/-- A pass writes none of the fields it reads, so the next one finds its outputs in place. -/
@[simp] theorem decodedChip_decodedChip (P : Params) (c : Chip) :
    decodedChip P (decodedChip P c) = decodedChip P c := by
  have hds : depthSelect P (decodedChip P c) = depthSelect P c := depthSelect_congr rfl
  have hsup : suppressed P (decodedChip P c) = suppressed P c := suppressed_congr rfl
  have hnib : dacNibble (decodedChip P c) = dacNibble c := dacNibble_congr rfl
  rw [decodedChip_frame P (decodedChip P c), decodedChip_rgb8, decodedChip_rgb15, decodedChip_rgb16, decodedChip_rgb32,
    hds, hsup, hnib, resolvedClock_decodedChip]
  rfl

/-- Settles O45: the outputs are functions of the depth-select code, the suppression bit, the high nibble and the resolved clock, each of
which reads its own inputs alone; and a pass writes none of those inputs. -/
theorem decodeIsIdempotent : Obligations.DecodeIsIdempotent := by
  refine ⟨fun P c c' hi hm hp hd => ?inputs, fun s => ⟨?again, _, modeDecode_tlog s, ?history⟩⟩
  case inputs =>
    have hds : depthSelect P c = depthSelect P c' := depthSelect_congr hp
    have hsup : suppressed P c = suppressed P c' := suppressed_congr hp
    have hnib : dacNibble c = dacNibble c' := dacNibble_congr hd
    have hclk : resolvedClock P c = resolvedClock P c' := resolvedClock_congr hi hm
    simp [hds, hsup, hnib, hclk]
  case again => simp
  case history => simp

end Sys2Proof.Machine
end

section
/-! The write-bank alias port (45_bank_alias.md R190, R191): the key of its read, the operation it spells and the byte it answers. -/

namespace Sys2Proof.Machine

variable {P : Params} {misc i v : Byte}

/-- The write-bank alias port fails every port test before its own, since no two claimed ports are equal (R74). -/
theorem portClass_bankW (h : paramsLegal P = true) : portClass P misc (bankWPort P misc) = .bankW := by
  have hn := claimedPorts_nodup h misc
  simp only [claimedPorts, List.cons_append, List.nil_append, List.nodup_cons, List.mem_cons,
    List.mem_append, Option.mem_toList, not_or] at hn
  obtain ⟨⟨-, -, -, -, -, -, seq_ne, -⟩, -, -, -, -, -, ⟨crtc_ne, -⟩, ⟨-, aliasIndex_ne, aliasData_ne⟩, -⟩ := hn
  rw [portClass, if_neg (Ne.symm seq_ne), if_neg (Ne.symm aliasData_ne), if_neg (Ne.symm aliasIndex_ne),
    if_neg (Ne.symm crtc_ne), if_pos rfl]

/-- A key at the write-bank alias port spells the port's read or write, whatever its index byte. -/
theorem decodeKey_bankW (h : paramsLegal P = true) (w : Bool) :
    decodeKey P misc (mkKey (if w then 1 else 0) 0 (ioAddr (bankWPort P misc)) i v) =
      .op (if w then .bankwW v else .bankwR) := by
  rw [decodeKey_ioKey, portOp, portClass_bankW h]

/-- The read answers one byte and changes nothing else; of extension register B it looks at the enabled bit alone (R191). -/
theorem exec_bankwR (s : State) :
    exec .bankwR s = .next { s with
      result := some (if s.st.gcExtb.getLsbD s.params.gcbEnBit.val then s.st.bankW.zeroExtend 8 else 0xFF) } := rfl

/-- Settles O30: the port passes its own test of the port tests, and the read chooses between the bank's zero extension and the sentinel by the
enabled bit; the default key is one evaluation of the encoder. -/
theorem writeBankPortRead : Obligations.WriteBankPortRead := by
  refine ⟨fun s => ⟨fun hl => decodeKey_bankW hl false, fun hen => ?enabled, fun hdis => ?disabled⟩, by decide⟩
  case enabled =>
    have hbyte : (s.st.bankW.zeroExtend 8).toNat = s.st.bankW.toNat :=
      BitVec.toNat_setWidth_of_le (by decide)
    exact ⟨_, by rw [exec_bankwR, if_pos hen], hbyte⟩
  case disabled => rw [exec_bankwR, hdis, if_neg Bool.false_ne_true]

end Sys2Proof.Machine
end

section
/-! The DAC command byte (47_dac.md R215): which operations write it, and what of the next state depends on it. -/

namespace Sys2Proof.Machine

variable {i : Instr} {s t t' : State} {d : Byte}

/-- An operation that chooses between two answers gives one of them. -/
theorem next_of_ite {p : Prop} [Decidable p] {u w : State}
    (h : (if p then Host.Outcome.next u else .next w : Outcome) = .next t) : (p ∧ t = u) ∨ (¬ p ∧ t = w) := by
  split at h <;> cases h
  next hp => exact .inl ⟨hp, rfl⟩
  next hp => exact .inr ⟨hp, rfl⟩

/-! ### Which operations write the byte -/

/-- A mode-control-1 write is a storage write in either mode (R118). -/
theorem execSeqMc1W_eq_ite (v : Byte) (s : State) :
    execSeqMc1W v s =
      if s.st.newMode then chipWrite (writeBank s.params (mc1Bank true v) { s.st with mc1New := invertBit1 v }) s
      else chipWrite (writeBank s.params (mc1Bank false v) { s.st with mc1Old := v }) s := by
  cases hm : s.st.newMode <;> simp [execSeqMc1W, hm]

theorem execSeqMc1W_keeps_dacCmd {v : Byte} (h : execSeqMc1W v s = .next t) : t.st.dacCmd = s.st.dacCmd := by
  rw [execSeqMc1W_eq_ite] at h
  rcases next_of_ite h with ⟨-, rfl⟩ | ⟨-, rfl⟩ <;> rfl

/-- A mode-control-2 write stores no command byte, and neither does the decode pass after it (R116). -/
theorem execSeqMc2W_keeps_dacCmd {v : Byte} (h : execSeqMc2W v s = .next t) : t.st.dacCmd = s.st.dacCmd := by
  rcases next_of_ite h with ⟨-, rfl⟩ | ⟨-, rfl⟩ <;> rfl

/-- The byte stays as it is, or the operation is reset or the command port's write while Active, whose byte it then is. -/
theorem exec_keeps_or_writes_dacCmd (h : exec i s = .next t) :
    t.st.dacCmd = s.st.dacCmd ∨ i = .reset ∨ (s.st.dacState = .active ∧ i = .dacCmdW t.st.dacCmd) := by
  cases i with
  | reset => exact .inr (.inl rfl)
  | dacCmdW v =>
    rcases next_of_ite h with ⟨ha, rfl⟩ | ⟨-, rfl⟩
    · exact .inr (.inr ⟨ha, rfl⟩)
    · exact .inl rfl
  | seqMc1W v => exact .inl (execSeqMc1W_keeps_dacCmd h)
  | seqMc2W v => exact .inl (execSeqMc2W_keeps_dacCmd h)
  | seqaDataR x =>
    rw [exec_seqaDataR x 0, seqOp] at h
    cases hx : seqReg s.params x <;> rw [hx] at h <;> cases h <;> exact .inl rfl
  | seqaDataW x v =>
    rw [exec_seqaDataW, seqOp] at h
    cases hx : seqReg s.params x <;> rw [hx] at h
    case mc1 => exact .inl (execSeqMc1W_keeps_dacCmd h)
    case mc2 => exact .inl (execSeqMc2W_keeps_dacCmd h)
    all_goals cases h; exact .inl rfl
  | bankwW v | bankrW v | dacCmdR | fbR o | fbW o v =>
    rcases next_of_ite h with ⟨-, rfl⟩ | ⟨-, rfl⟩ <;> exact .inl rfl
  | _ => cases h; exact .inl rfl  -- one record update, which does not name the command byte

/-! ### What the byte reaches -/

/-- The state with command byte `d`. -/
def State.withCommand (s : State) (d : Byte) : State := s.withChip { s.st with dacCmd := d }

@[simp] theorem withCommand_params : (s.withCommand d).params = s.params := rfl

/-- The two bytes have the same high nibble (R215). -/
abbrev SameNibble (d e : Byte) : Prop := d.toNat / 16 = e.toNat / 16

/-- Two states differ at most in the command byte and in the two flags it chooses between (R179); in the flags only when `same` fails. -/
structure DifferByCommand (same : Prop) (t t' : State) : Prop where
  frame : t' = { t with st := { t.st with dacCmd := t'.st.dacCmd, rgb15 := t'.st.rgb15, rgb16 := t'.st.rgb16 } }
  flags : same → t'.st.rgb15 = t.st.rgb15 ∧ t'.st.rgb16 = t.st.rgb16

/-- Two states that differ at most in the command byte. -/
theorem DifferByCommand.of_command {same : Prop} (h : t' = t.withCommand d) : DifferByCommand same t t' := by
  subst h
  exact ⟨rfl, fun _ => ⟨rfl, rfl⟩⟩

theorem dacNibble_withCommand (h : SameNibble d s.st.dacCmd) : dacNibble (s.withCommand d).st = dacNibble s.st := by
  rw [dacNibble_eq_iff, dacNibble_toNat]
  exact h

/-- A decode pass reads the high nibble alone of the byte, and only for the 15bpp and 16bpp flags (R179). -/
theorem modeDecode_differByCommand (u : State) (d : Byte) :
    DifferByCommand (SameNibble d u.st.dacCmd) { modeDecode u with result := none }
      { modeDecode (u.withCommand d) with result := none } where
  frame := rfl
  flags h := by
    have hds : depthSelect u.params (u.withCommand d).st = depthSelect u.params u.st := depthSelect_congr rfl
    simp [hds, dacNibble_withCommand h]

/-- Two runs that take the same branch differ as the answers of that branch do. -/
theorem differByCommand_of_ite {same p : Prop} [Decidable p] {u w u' w' : State}
    (h : (if p then Host.Outcome.next u else .next w : Outcome) = .next t)
    (h' : (if p then Host.Outcome.next u' else .next w' : Outcome) = .next t')
    (hu : p → DifferByCommand same u u') (hw : ¬ p → DifferByCommand same w w') : DifferByCommand same t t' := by
  by_cases hp : p
  · rw [if_pos hp] at h h'
    cases h; cases h'
    exact hu hp
  · rw [if_neg hp] at h h'
    cases h; cases h'
    exact hw hp

/-- A mode-control-1 write looks at the mode and the separated bit, not at the command byte (R118). -/
theorem execSeqMc1W_differByCommand {v : Byte} {same : Prop} (h : execSeqMc1W v s = .next t)
    (h' : execSeqMc1W v (s.withCommand d) = .next t') : DifferByCommand same t t' := by
  rw [execSeqMc1W_eq_ite] at h h'
  exact differByCommand_of_ite h h' (fun _ => .of_command rfl) (fun _ => .of_command rfl)

/-- A mode-control-2 write in new mode ends with a decode pass; in old mode it is a storage write (R116). -/
theorem execSeqMc2W_differByCommand {v : Byte} (h : execSeqMc2W v s = .next t)
    (h' : execSeqMc2W v (s.withCommand d) = .next t') : DifferByCommand (SameNibble d s.st.dacCmd) t t' :=
  differByCommand_of_ite h h'
    (fun _ => modeDecode_differByCommand
      (s.withChip { s.st with mc2New := v, clockIdx := clockSelect s.params v s.host.misc }) d)
    fun _ => .of_command rfl

/-- An operation run under two command bytes, but the read of the byte itself: the answers differ at most in that byte, and after a decode pass
in the two flags. -/
theorem exec_differByCommand (h : exec i s = .next t) (h' : exec i (s.withCommand d) = .next t')
    (hr : ¬ (i = .dacCmdR ∧ s.st.dacState = .active)) : DifferByCommand (SameNibble d s.st.dacCmd) t t' := by
  cases i with
  | crStdW x v =>
    cases h; cases h'
    exact modeDecode_differByCommand (hostStdWrite .crtc x v s) d
  | crPixdepthW v =>
    cases h; cases h'
    exact modeDecode_differByCommand (s.withChip { s.st with crPixdepth := v }) d
  | seqMc1W v => exact execSeqMc1W_differByCommand h h'
  | seqMc2W v => exact execSeqMc2W_differByCommand h h'
  | seqaDataR x =>
    rw [exec_seqaDataR x 0, seqOp] at h h'
    rw [withCommand_params] at h'
    cases hx : seqReg s.params x <;> rw [hx] at h h' <;> cases h <;> cases h' <;> exact .of_command rfl
  | seqaDataW x v =>
    rw [exec_seqaDataW, seqOp] at h h'
    rw [withCommand_params] at h'
    cases hx : seqReg s.params x <;> rw [hx] at h h'
    case mc1 => exact execSeqMc1W_differByCommand h h'
    case mc2 => exact execSeqMc2W_differByCommand h h'
    all_goals cases h; cases h'; exact .of_command rfl
  | dacCmdR =>
    exact differByCommand_of_ite h h' (fun ha => absurd ⟨rfl, ha⟩ hr) fun _ => .of_command rfl
  | bankwW v | bankrW v | dacCmdW v | fbR o | fbW o v =>
    exact differByCommand_of_ite h h' (fun _ => .of_command rfl) (fun _ => .of_command rfl)
  | _ => cases h; cases h'; exact .of_command rfl  -- one record update with no decode pass

/-! ### The statement -/

/-- Settles O57: the case analysis over all operations gives who writes the byte; the frame of two runs under two bytes gives the rest, the two
flags it leaves open being fixed by the high nibble. -/
theorem commandByteOnlyWhileActive : Obligations.CommandByteOnlyWhileActive := by
  refine ⟨fun i s t h hne => (exec_keeps_or_writes_dacCmd h).resolve_left hne, fun i s t t' d h h' hr => ?_⟩
  obtain ⟨hframe, hflags⟩ := exec_differByCommand h h' hr
  refine ⟨by rw [hframe], by rw [hframe], by rw [hframe], fun hd => ⟨?_, by rw [hframe]⟩⟩
  obtain ⟨h15, h16⟩ := hflags hd
  rw [h15, h16] at hframe
  exact (congrArg State.st hframe :)

end Sys2Proof.Machine
end

section
/-! No operation raises an error (60_exceptions.md R230): every operation answers a next state, a disabled bank-alias port answers as an unknown
index does, and a window offset wraps into video memory. -/

namespace Sys2Proof.Machine

variable {s : State}

/-! ### Every operation completes -/

/-- An operation that chooses between two answers completes. -/
theorem completes_of_ite {p : Prop} [Decidable p] (u w : State) :
    ∃ t, (if p then Host.Outcome.next u else .next w : Outcome) = .next t :=
  ⟨if p then u else w, (apply_ite Host.Outcome.next p u w).symm⟩

/-- A mode-control-2 write either ends with a decode pass or is a storage write (R116). -/
theorem execSeqMc2W_completes (v : Byte) (s : State) : ∃ t, execSeqMc2W v s = .next t :=
  completes_of_ite _ _

/-- Whatever the sequencer dispatch selects completes (R94, R95). -/
theorem exec_seqOp_completes (w : Bool) (x v : Byte) (s : State) : ∃ t, exec (seqOp s.params w x v) s = .next t := by
  rw [seqOp]
  cases seqReg s.params x <;> cases w
  case mc2.true => exact execSeqMc2W_completes v s
  all_goals exact ⟨_, rfl⟩

/-- Every operation answers a next state in every state: none ends in a fault or in a refusal (R230). -/
theorem exec_completes (i : Instr) (s : State) : ∃ t, exec i s = .next t := by
  cases i with
  | seqMc2W v => exact execSeqMc2W_completes v s
  | seqaDataR x => exact exec_seqaDataR x 0 s ▸ exec_seqOp_completes false x 0 s
  | seqaDataW x v => exact exec_seqaDataW x v s ▸ exec_seqOp_completes true x v s
  | bankwW v | bankrW v | dacCmdR | dacCmdW v | fbR o | fbW o v => exact completes_of_ite _ _
  | _ => exact ⟨_, rfl⟩  -- one record update, which ends in `yields` or in `yieldsNothing`

/-! ### A disabled bank-alias port (R191 to R194)

While the enabled bit is clear both ports answer as an unknown index does, whatever the separated bit. -/

theorem exec_bankwR_of_disabled (h : aliasEnabled s.params s.st = false) : exec .bankwR s = unknownRead s := by
  show execBankwR s = _
  rw [execBankwR, h]
  rfl

theorem exec_bankrR_of_disabled (h : aliasEnabled s.params s.st = false) : exec .bankrR s = unknownRead s := by
  show execBankrR s = _
  rw [execBankrR, h]
  rfl

theorem exec_bankwW_of_disabled (h : aliasEnabled s.params s.st = false) (v : Byte) :
    exec (.bankwW v) s = unknownWrite s := by
  show execBankwW v s = _
  rw [execBankwW, h]
  rfl

theorem exec_bankrW_of_disabled (h : aliasEnabled s.params s.st = false) (v : Byte) :
    exec (.bankrW v) s = unknownWrite s := by
  show execBankrW v s = _
  rw [execBankrW, h]
  rfl

/-! ### A window offset beyond video memory (R201, R202, R204) -/

theorem effectiveOffset_lt {P : Params} (h : 0 < P.vramSize) (newMode : Bool) (bank : BitVec 5) (o : Offset) :
    effectiveOffset P newMode bank o < P.vramSize :=
  Nat.mod_lt _ h

/-! ### The statement -/

/-- Settles O50: the case analysis over all operations gives completion; each access of the two clauses on anomalies is the shared read or write
of an unknown index, and the offset is a remainder by the size of video memory. -/
theorem noOperationRaises : Obligations.NoOperationRaises := by
  refine ⟨exec_completes, fun s t x h => ?reads, fun s t x v h => ?writes, fun P m b o h => effectiveOffset_lt h m b o⟩
  case reads =>
    have hread : unknownRead s = .next t := by
      rcases h with h | h | h | ⟨hdis, h | h⟩
      · exact h
      · exact h
      · exact h
      · rwa [exec_bankwR_of_disabled hdis] at h
      · rwa [exec_bankrR_of_disabled hdis] at h
    obtain rfl := unknownRead_next hread
    exact ⟨rfl, rfl⟩
  case writes =>
    have hwrite : unknownWrite s = .next t := by
      rcases h with h | h | h | ⟨hdis, h | h⟩
      · exact h
      · exact h
      · exact h
      · rwa [exec_bankwW_of_disabled hdis] at h
      · rwa [exec_bankrW_of_disabled hdis] at h
    obtain rfl := unknownWrite_next hwrite
    exact ⟨rfl, rfl⟩

end Sys2Proof.Machine
end

section
/-! What one operation makes of the chip state and of the timing history. Both are functions of the parameters, the misc-output byte, the chip
state and the operation; the statements about the whole machine are read off these functions. -/

namespace Sys2Proof.Machine

variable {P : Params} {misc : Byte} {c : Chip} {i j : Instr} {s t : State}

/-! ### The aliased data port runs the data port's operations (R109, R110) -/

/-- An access to the aliased sequencer data port. -/
def isAliasData : Instr → Bool
  | .seqaDataR _ | .seqaDataW _ _ => true
  | _ => false

/-- The operation that runs: of the aliased data port the one the data port's dispatch selects, else the operation itself. -/
def direct (P : Params) : Instr → Instr
  | .seqaDataR x => seqOp P false x 0
  | .seqaDataW x v => seqOp P true x v
  | i => i

theorem exec_direct (i : Instr) (s : State) : exec i s = exec (direct s.params i) s := by
  cases i with
  | seqaDataR x => exact exec_seqaDataR x 0 s
  | seqaDataW x v => exact exec_seqaDataW x v s
  | _ => rfl

/-- The sequencer dispatch selects no operation of the aliased port. -/
theorem isAliasData_seqOp (P : Params) (w : Bool) (x v : Byte) : isAliasData (seqOp P w x v) = false := by
  rw [seqOp]
  cases seqReg P x <;> cases w <;> rfl

theorem isAliasData_direct (P : Params) (i : Instr) : isAliasData (direct P i) = false := by
  cases i with
  | seqaDataR x | seqaDataW x v => exact isAliasData_seqOp ..
  | _ => rfl

/-- A property with the same value at an aliased access and at the operation it selects is a property of the operation that runs. -/
theorem congr_direct {β : Type} (f : Instr → β) (hr : ∀ x, f (seqOp P false x 0) = f (.seqaDataR x))
    (hw : ∀ x v, f (seqOp P true x v) = f (.seqaDataW x v)) (i : Instr) : f (direct P i) = f i := by
  cases i with
  | seqaDataR x => exact hr x
  | seqaDataW x v => exact hw x v
  | _ => rfl

/-! ### The chip state after an operation -/

/-- The chip state an operation leaves, from parameters, misc-output byte and chip state alone; of the aliased data port ask `direct`. -/
def chipAfter (P : Params) (misc : Byte) (c : Chip) : Instr → Chip
  | .seqUnlockR => { c with newMode := true }
  | .seqUnlockW _ => { c with newMode := false }
  | .seqPum1W v => { c with pum1 := v, altPost := bit v P.pum1AltpostBit }
  | .seqMc2W v =>
    if c.newMode then decodedChip P { c with mc2New := v, clockIdx := clockSelect P v misc } else { c with mc2Old := v }
  | .seqMc1W v =>
    if c.newMode then writeBank P (mc1Bank true v) { c with mc1New := invertBit1 v }
    else writeBank P (mc1Bank false v) { c with mc1Old := v }
  | .seqPum2W v => { c with pum2 := v }
  | .crStdW _ _ => decodedChip P c
  | .crModtestW v => { c with crModtest := v }
  | .crSwprogW v => { c with crSwprog := v }
  | .crLinapW v =>
    { c with crLinap := v, linAddr := apertureAddr v, linActive := bit v P.laActiveBit, lin2mb := bit v P.laSizeBit }
  | .crOffextW v => { c with crOffext := v }
  | .crPixdepthW v => decodedChip P { c with crPixdepth := v }
  | .crMmioW v => { c with crMmio := v, mmioActive := bit v P.mmioBit }
  | .crFinalW v => { c with crFinal := v }
  | .gcExtaW v => { c with gcExta := v, bankR := if separated P c then bankOf v else c.bankR }
  | .gcExtbW v => { c with gcExtb := v }
  | .gcMiscW v => { c with gcMisc := v }
  | .bankwW v => if aliasEnabled P c then writeBank P (bankOf v) c else c
  | .bankrW v => if aliasEnabled P c && separated P c then { c with bankR := bankOf v } else c
  | .dacCmdR => if c.dacState = .active then c else detectorCount c
  | .dacCmdW v => if c.dacState = .active then decodedChip P (detectorIdle { c with dacCmd := v }) else detectorCount c
  | .dacRstR _ | .dacRstW _ _ => detectorIdle c
  | .reset => Chip.reset P.revisionId
  | _ => c

section choices
variable (P : Params) (misc : Byte) (c : Chip) (v : Byte)

theorem chipAfter_seqMc2W : chipAfter P misc c (.seqMc2W v) =
    if c.newMode then decodedChip P { c with mc2New := v, clockIdx := clockSelect P v misc }
    else { c with mc2Old := v } := rfl

theorem chipAfter_seqMc1W : chipAfter P misc c (.seqMc1W v) =
    if c.newMode then writeBank P (mc1Bank true v) { c with mc1New := invertBit1 v }
    else writeBank P (mc1Bank false v) { c with mc1Old := v } := rfl

theorem chipAfter_gcExtaW : chipAfter P misc c (.gcExtaW v) =
    { c with gcExta := v, bankR := if separated P c then bankOf v else c.bankR } := rfl

theorem chipAfter_bankwW : chipAfter P misc c (.bankwW v) =
    if aliasEnabled P c then writeBank P (bankOf v) c else c := rfl

theorem chipAfter_bankrW : chipAfter P misc c (.bankrW v) =
    if aliasEnabled P c && separated P c then { c with bankR := bankOf v } else c := rfl

theorem chipAfter_dacCmdW : chipAfter P misc c (.dacCmdW v) =
    if c.dacState = .active then decodedChip P (detectorIdle { c with dacCmd := v }) else detectorCount c := rfl

end choices

/-- An operation that chooses between two answers leaves the chip state of the one chosen. -/
theorem st_of_ite {p : Prop} [Decidable p] {u w : State}
    (h : (if p then Host.Outcome.next u else .next w : Outcome) = .next t) :
    t.st = if p then u.st else w.st := by
  rcases next_of_ite h with ⟨hp, rfl⟩ | ⟨hp, rfl⟩
  · rw [if_pos hp]
  · rw [if_neg hp]

theorem exec_st_of_not_aliasData (hj : isAliasData j = false) (h : exec j s = .next t) :
    t.st = chipAfter s.params s.host.misc s.st j := by
  cases j with
  | seqaDataR x | seqaDataW x v => cases hj
  | seqMc1W v =>
    replace h : execSeqMc1W v s = .next t := h
    rw [execSeqMc1W_eq_ite] at h
    exact st_of_ite h
  | seqMc2W v | bankwW v | bankrW v | dacCmdR | dacCmdW v => exact st_of_ite h
  | fbR o | fbW o v => rcases next_of_ite h with ⟨-, rfl⟩ | ⟨-, rfl⟩ <;> rfl
  | _ => cases h; rfl  -- one record update

/-- The chip state after an operation. -/
theorem exec_st (h : exec i s = .next t) : t.st = chipAfter s.params s.host.misc s.st (direct s.params i) := by
  rw [exec_direct] at h
  exact exec_st_of_not_aliasData (isAliasData_direct ..) h

theorem exec_params (h : exec i s = .next t) : t.params = s.params := by
  rw [exec_direct] at h
  have hj := isAliasData_direct s.params i
  generalize direct s.params i = j at h hj
  cases j with
  | seqaDataR x | seqaDataW x v => cases hj
  | seqMc2W v | bankwW v | bankrW v | dacCmdR | dacCmdW v | fbR o | fbW o v =>
    rcases next_of_ite h with ⟨-, rfl⟩ | ⟨-, rfl⟩ <;> rfl
  | _ => cases h; rfl  -- one record update, which does not name the parameters

/-! ### The timing history after an operation (R181, R184) -/

theorem runsDecoder_direct (s : State) (i : Instr) : runsDecoder s (direct s.params i) = runsDecoder s i :=
  congr_direct (runsDecoder s) (fun x => by rw [seqOp]; cases seqReg s.params x <;> rfl)
    (fun x v => by rw [seqOp]; cases hx : seqReg s.params x <;> simp [runsDecoder, hx]) i

theorem exec_tlog (h : exec i s = .next t) :
    t.tlog = if runsDecoder s i then s.tlog ++ [(s.params.timingDivPlaceholder, resolvedClock s.params t.st)]
      else s.tlog := by
  rw [exec_direct] at h
  rw [← runsDecoder_direct]
  have hj := isAliasData_direct s.params i
  generalize direct s.params i = j at h hj
  cases j with
  | seqaDataR x | seqaDataW x v => cases hj
  | seqMc2W v | dacCmdW v =>
    rcases next_of_ite h with ⟨hp, rfl⟩ | ⟨hp, rfl⟩ <;> simp [runsDecoder, hp]
  | bankwW v | bankrW v | dacCmdR | fbR o | fbW o v =>
    rcases next_of_ite h with ⟨-, rfl⟩ | ⟨-, rfl⟩ <;> rfl
  | _ => cases h; rfl

end Sys2Proof.Machine
end

section
/-! What one operation makes of the host's side: at most one write, of an index register, of a standard register or of one byte of memory. -/

namespace Sys2Proof.Machine

variable {P : Params} {c : Chip} {h : HostSide} {i j : Instr} {s t : State}

/-- The one write of an operation on the host's side, if it makes any. -/
inductive HostEffect where
  | none
  | portWrite (p : Port) (v : Byte)
  | stdWrite (g : Group) (i v : Byte)
  | genWrite (o : Offset) (v : Byte)
  | vramWrite (a : Nat) (v : Byte)

/-- The host's side after the write. -/
def HostEffect.apply (P : Params) (h : HostSide) : HostEffect → HostSide
  | .none => h
  | .portWrite p v => standInPortWrite P h p v
  | .stdWrite g i v => h.writeStd g i v
  | .genWrite o v => { h with genMem := h.genMem.write o.toNat v }
  | .vramWrite a v => { h with vram := h.vram.write a v }

/-- The write an operation makes on the host's side; of the aliased data port ask `direct`. -/
def hostEffect (P : Params) (c : Chip) : Instr → HostEffect
  | .passW p v => .portWrite p v
  | .seqStdW i v => .stdWrite .seq i v
  | .crStdW i v => .stdWrite .crtc i v
  | .gcStdW i v => .stdWrite .gc i v
  | .dacCmdW v => if c.dacState = .active then .none else .portWrite P.pDacCmd v
  | .dacRstW r v => .portWrite (dacResetPort P r) v
  | .seqaIdxW v => .portWrite P.pSeqIndex v
  | .fbW o v => if banked c then .vramWrite (effectiveOffset P c.newMode c.bankW o) v else .genWrite o v
  | _ => .none

theorem exec_host_of_not_aliasData (hj : isAliasData j = false) (he : exec j s = .next t) :
    t.host = (hostEffect s.params s.st j).apply s.params s.host := by
  cases j with
  | seqaDataR x | seqaDataW x v => cases hj
  | dacCmdW v | fbW o v =>
    rcases next_of_ite he with ⟨hp, rfl⟩ | ⟨hp, rfl⟩ <;> simp [hostEffect, hp] <;> rfl
  | seqMc2W v | bankwW v | bankrW v | dacCmdR | fbR o =>
    rcases next_of_ite he with ⟨-, rfl⟩ | ⟨-, rfl⟩ <;> rfl
  | _ => cases he; rfl  -- one record update

/-- The host's side after an operation. -/
theorem exec_host (he : exec i s = .next t) :
    t.host = (hostEffect s.params s.st (direct s.params i)).apply s.params s.host := by
  rw [exec_direct] at he
  exact exec_host_of_not_aliasData (isAliasData_direct ..) he

/-- A write of an index register is a call of the host's port handler (R12). -/
theorem exec_calls_of_portWrite {p : Port} {v : Byte} (he : exec i s = .next t)
    (hw : hostEffect s.params s.st (direct s.params i) = .portWrite p v) : t.calls = s.calls ++ [.portWrite p v] := by
  rw [exec_direct] at he
  have hj := isAliasData_direct s.params i
  generalize direct s.params i = j at he hj hw
  cases j with
  | passW | dacRstW | seqaIdxW => cases he; cases hw; rfl
  | dacCmdW v =>
    rcases next_of_ite he with ⟨hp, rfl⟩ | ⟨hp, rfl⟩ <;> simp only [hostEffect, hp] at hw <;> cases hw
    rfl
  | fbW o v =>
    by_cases hb : banked s.st <;> simp [hostEffect, hb] at hw
  | _ => cases hw

/-- A read writes nothing on the host's side. -/
theorem hostEffect_of_read (hr : isRead j = true) : hostEffect P c j = .none := by
  cases j <;> cases hr <;> rfl

/-! ### What a write leaves of the host's side -/

theorem HostEffect.apply_misc (P : Params) (h : HostSide) (e : HostEffect) : (e.apply P h).misc = h.misc := by
  cases e with
  | portWrite p v => exact (standInPortWrite_frame P h p v).1
  | stdWrite g i v => cases g <;> rfl
  | _ => rfl

theorem HostEffect.apply_startAddr (P : Params) (h : HostSide) (e : HostEffect) :
    (e.apply P h).startAddr = h.startAddr := by
  cases e with
  | portWrite p v => 
    obtain ⟨-, hs, -⟩ := standInPortWrite_frame P h p v
    exact hs
  | stdWrite g i v => cases g <;> rfl
  | _ => rfl

/-- Only a port write reaches the index registers. -/
theorem HostEffect.apply_indexes (P : Params) (h : HostSide) {e : HostEffect} (he : ∀ p v, e ≠ .portWrite p v) :
    (e.apply P h).seqIndex = h.seqIndex ∧ (e.apply P h).crtcIndex = h.crtcIndex ∧
      (e.apply P h).gcIndex = h.gcIndex := by
  cases e with
  | portWrite p v => exact absurd rfl (he p v)
  | stdWrite g i v => cases g <;> exact ⟨rfl, rfl, rfl⟩
  | _ => exact ⟨rfl, rfl, rfl⟩

theorem exec_misc (he : exec i s = .next t) : t.host.misc = s.host.misc := by
  rw [exec_host he, HostEffect.apply_misc]

/-- Settles O60: the host's side after an operation is the one before with one write, and only a port write reaches an index register. -/
theorem indexRegistersAreTheHosts : Obligations.IndexRegistersAreTheHosts := by
  intro i s t he
  refine ⟨exec_misc he, ?_, fun hcalls => ?_⟩
  · rw [exec_host he, HostEffect.apply_startAddr]
  · rw [exec_host he]
    exact HostEffect.apply_indexes _ _ fun p v hw => hcalls p v (exec_calls_of_portWrite he hw)

/-! ### The host's answers and memories do not reach the chip (R35, R175) -/

/-- Two machines agree in everything an operation can bring to the chip state and the timing history. -/
structure SameChipSide (s₁ s₂ : State) : Prop where
  params : s₁.params = s₂.params
  st : s₁.st = s₂.st
  misc : s₁.host.misc = s₂.host.misc
  tlog : s₁.tlog = s₂.tlog

theorem runsDecoder_congr {s₁ s₂ : State} (h : SameChipSide s₁ s₂) (i : Instr) : runsDecoder s₁ i = runsDecoder s₂ i := by
  cases i <;> simp only [runsDecoder, h.params, h.st]

theorem exec_sameChipSide {s₁ s₂ t₁ t₂ : State} (h : SameChipSide s₁ s₂) (h₁ : exec i s₁ = .next t₁)
    (h₂ : exec i s₂ = .next t₂) : SameChipSide t₁ t₂ := by
  have hst : t₁.st = t₂.st := by rw [exec_st h₁, exec_st h₂, h.params, h.st, h.misc]
  exact {
    params := by rw [exec_params h₁, exec_params h₂, h.params]
    st := hst
    misc := by rw [exec_misc h₁, exec_misc h₂, h.misc]
    tlog := by rw [exec_tlog h₁, exec_tlog h₂, runsDecoder_congr h, h.params, h.tlog, hst] }

/-- A run that answers a next state ran its first operation, and then the others from there. -/
theorem execAll_cons_next {is : List Instr} (h : execAll (i :: is) s = .next t) :
    ∃ u, exec i s = .next u ∧ execAll is u = .next t := by
  obtain ⟨u, hu⟩ := exec_completes i s
  rw [execAll, hu] at h
  exact ⟨u, hu, h⟩

theorem execAll_sameChipSide {is : List Instr} {s₁ s₂ t₁ t₂ : State} (h : SameChipSide s₁ s₂)
    (h₁ : execAll is s₁ = .next t₁) (h₂ : execAll is s₂ = .next t₂) : SameChipSide t₁ t₂ := by
  induction is generalizing s₁ s₂ with
  | nil =>
    cases h₁; cases h₂
    exact h
  | cons i is ih =>
    obtain ⟨u₁, hu₁, h₁⟩ := execAll_cons_next h₁
    obtain ⟨u₂, hu₂, h₂⟩ := execAll_cons_next h₂
    exact ih (exec_sameChipSide h hu₁ hu₂) h₁ h₂

/-- Settles O59: every operation keeps the agreement of the two machines, by induction on the list. -/
theorem hostAnswersNeverReachTheChip : Obligations.HostAnswersNeverReachTheChip := by
  intro is s₁ s₂ t₁ t₂ hp hst hm hl h₁ h₂
  have h := execAll_sameChipSide ⟨hp, hst, hm, hl⟩ h₁ h₂
  exact ⟨h.st, h.tlog⟩

end Sys2Proof.Machine
end

section
/-! The parts of the chip state one by one: which operations change each, and to what (10_state.md R36; 45_bank_alias.md R195; 47_dac.md R210). -/

namespace Sys2Proof.Machine

variable {P : Params} {misc : Byte} {c : Chip} {i j : Instr} {s t : State}

/-! ### Properties of an operation that the aliased data port shares with the operation it runs -/

theorem isRead_direct (P : Params) (i : Instr) : isRead (direct P i) = isRead i :=
  congr_direct isRead (fun _ => isRead_seqOp ..) (fun _ _ => isRead_seqOp ..) i

/-- The sequencer dispatch gives an access to the unlock index exactly where it selects that register. -/
theorem isUnlock_seqOp (P : Params) (w : Bool) (x v : Byte) :
    isUnlock P (seqOp P w x v) = decide (seqReg P x = .unlock) := by
  rw [seqOp]
  cases seqReg P x <;> cases w <;> rfl

theorem isUnlock_direct (P : Params) (i : Instr) : isUnlock P (direct P i) = isUnlock P i :=
  congr_direct (isUnlock P) (fun _ => isUnlock_seqOp ..) (fun _ _ => isUnlock_seqOp ..) i

/-- The register that an operation of the sequencer data port belongs to. -/
def seqRegister : Instr → Option SeqReg
  | .seqStdR _ | .seqStdW _ _ => some .std
  | .seqUnlockR | .seqUnlockW _ => some .unlock
  | .seqPum1R | .seqPum1W _ => some .pum1
  | .seqMc2R | .seqMc2W _ => some .mc2
  | .seqMc1R | .seqMc1W _ => some .mc1
  | .seqPum2R | .seqPum2W _ => some .pum2
  | .seqUnkR _ | .seqUnkW _ _ => some .unk
  | _ => none

theorem seqRegister_seqOp (P : Params) (w : Bool) (x v : Byte) : seqRegister (seqOp P w x v) = some (seqReg P x) := by
  rw [seqOp]
  cases seqReg P x <;> cases w <;> rfl

/-- What runs is the operation itself, unless it belongs to the sequencer data port. -/
theorem eq_of_direct_eq (h : direct P i = j) (hj : seqRegister j = none) : i = j := by
  cases i with
  | seqaDataR | seqaDataW => rw [← h, direct, seqRegister_seqOp] at hj; cases hj
  | _ => exact h

/-- A write of a sequencer register runs where it is spelled, or where the aliased data port selects that register. -/
theorem eq_or_aliasData_of_direct_eq {r : SeqReg} (h : direct P i = j) (hj : seqRegister j = some r) (hw : isRead j = false) :
    i = j ∨ ∃ x v, i = .seqaDataW x v ∧ seqReg P x = r := by
  cases i with
  | seqaDataR x => rw [← h, direct, isRead_seqOp] at hw; cases hw
  | seqaDataW x v =>
    rw [← h, direct, seqRegister_seqOp] at hj
    exact .inr ⟨x, v, rfl, Option.some.inj hj⟩
  | _ => exact .inl h

theorem direct_ne_reset (h : i ≠ .reset) : direct P i ≠ .reset :=
  fun hd => h (eq_of_direct_eq hd rfl)

theorem isDacCommand_direct (P : Params) (i : Instr) : isDacCommand (direct P i) = isDacCommand i :=
  congr_direct isDacCommand (fun x => by rw [seqOp]; cases seqReg P x <;> rfl)
    (fun x v => by rw [seqOp]; cases seqReg P x <;> rfl) i

theorem isDacReset_direct (P : Params) (i : Instr) : isDacReset (direct P i) = isDacReset i :=
  congr_direct isDacReset (fun x => by rw [seqOp]; cases seqReg P x <;> rfl)
    (fun x v => by rw [seqOp]; cases seqReg P x <;> rfl) i

/-! ### The parts of the chip state -/

/-- A part of the chip state that both choices leave at one value has that value. -/
theorem part_of_ite {α : Type} (f : Chip → α) {p : Prop} [Decidable p] {a b : Chip} {x : α} (ha : f a = x) (hb : f b = x) :
    f (if p then a else b) = x := by
  split <;> assumption

/-- The detector: its state, its count and the command byte (R27). -/
def detectorPart (c : Chip) : DacState × Nat × Byte := (c.dacState, c.dacCount, c.dacCmd)

/-- The aperture register and its three outputs (R30). -/
def aperturePart (c : Chip) : Byte × Nat × Bool × Bool := (c.crLinap, c.linAddr, c.linActive, c.lin2mb)

/-- The MMIO-enable register and its flag (R31). -/
def mmioPart (c : Chip) : Byte × Bool := (c.crMmio, c.mmioActive)

/-- Power-up-mode register 1 and its flag (R32). -/
def altPostPart (c : Chip) : Byte × Bool := (c.pum1, c.altPost)

/-- The Mode Decoder's outputs (R29). -/
def decoderPart (c : Chip) : Bool × Bool × Bool × Bool × Option Nat := (c.rgb8, c.rgb15, c.rgb16, c.rgb32, c.pixelClock)

theorem chipAfter_newMode (hj : isAliasData j = false) (hr : j ≠ .reset) :
    (chipAfter P misc c j).newMode = if isUnlock P j then isRead j else c.newMode := by
  cases j with
  | reset => exact absurd rfl hr
  | seqaDataR x | seqaDataW x v => cases hj
  | seqMc2W v | seqMc1W v | bankwW v | bankrW v | dacCmdR | dacCmdW v => exact part_of_ite Chip.newMode rfl rfl
  | _ => rfl

theorem chipAfter_revision (hr : j ≠ .reset) : (chipAfter P misc c j).revision = c.revision := by
  cases j with
  | reset => exact absurd rfl hr
  | seqMc2W v | seqMc1W v | bankwW v | bankrW v | dacCmdR | dacCmdW v => exact part_of_ite Chip.revision rfl rfl
  | _ => rfl

theorem chipAfter_detectorPart (hr : j ≠ .reset) (hcmd : isDacCommand j = false) (hrst : isDacReset j = false) :
    detectorPart (chipAfter P misc c j) = detectorPart c := by
  cases j with
  | reset => exact absurd rfl hr
  | dacCmdR | dacCmdW v => cases hcmd
  | dacRstR r | dacRstW r v => cases hrst
  | seqMc2W v | seqMc1W v | bankwW v | bankrW v => exact part_of_ite detectorPart rfl rfl
  | _ => rfl

/-- A command-port access while Idle or Arming counts and does nothing else to the chip state (R211, R212). -/
theorem chipAfter_of_command (hcmd : isDacCommand j = true) (ha : c.dacState ≠ .active) :
    chipAfter P misc c j = detectorCount c := by
  cases j with
  | dacCmdR | dacCmdW v => exact if_neg ha
  | _ => cases hcmd

/-- A reset-port access returns the detector to Idle and does nothing else to the chip state (R213, R214). -/
theorem chipAfter_of_dacReset (hrst : isDacReset j = true) : chipAfter P misc c j = detectorIdle c := by
  cases j with
  | dacRstR r | dacRstW r v => rfl
  | _ => cases hrst

theorem chipAfter_aperturePart (hr : j ≠ .reset) (hl : ∀ v, j ≠ .crLinapW v) :
    aperturePart (chipAfter P misc c j) = aperturePart c := by
  cases j with
  | reset => exact absurd rfl hr
  | crLinapW v => exact absurd rfl (hl v)
  | seqMc2W v | seqMc1W v | bankwW v | bankrW v | dacCmdR | dacCmdW v => exact part_of_ite aperturePart rfl rfl
  | _ => rfl

theorem chipAfter_mmioPart (hr : j ≠ .reset) (hm : ∀ v, j ≠ .crMmioW v) :
    mmioPart (chipAfter P misc c j) = mmioPart c := by
  cases j with
  | reset => exact absurd rfl hr
  | crMmioW v => exact absurd rfl (hm v)
  | seqMc2W v | seqMc1W v | bankwW v | bankrW v | dacCmdR | dacCmdW v => exact part_of_ite mmioPart rfl rfl
  | _ => rfl

theorem chipAfter_altPostPart (hr : j ≠ .reset) (hp : ∀ v, j ≠ .seqPum1W v) :
    altPostPart (chipAfter P misc c j) = altPostPart c := by
  cases j with
  | reset => exact absurd rfl hr
  | seqPum1W v => exact absurd rfl (hp v)
  | seqMc2W v | seqMc1W v | bankwW v | bankrW v | dacCmdR | dacCmdW v => exact part_of_ite altPostPart rfl rfl
  | _ => rfl

/-- An operation that runs no decode pass leaves the decoder's outputs, reset apart (R181). -/
theorem chipAfter_decoderPart (hr : j ≠ .reset) (hd : runsDecoder s j = false) :
    decoderPart (chipAfter P misc s.st j) = decoderPart s.st := by
  cases j with
  | reset => exact absurd rfl hr
  | crStdW x v | crPixdepthW v => cases hd
  | seqMc2W v =>
    have hm : s.st.newMode = false := hd
    simp [chipAfter_seqMc2W, hm, decoderPart]
  | dacCmdW v =>
    have ha : s.st.dacState ≠ .active := by simpa [runsDecoder] using hd
    simp [chipAfter_dacCmdW, ha, decoderPart, detectorCount]
  | seqMc1W v | bankwW v | bankrW v | dacCmdR => exact part_of_ite decoderPart rfl rfl
  | _ => rfl

/-- A write that runs a decode pass leaves what a pass over the cells as written leaves (R180, R181). -/
theorem chipAfter_of_runsDecoder (hj : isAliasData j = false) (hd : runsDecoder s j = true) :
    chipAfter P misc s.st j = decodedChip P (chipAfter P misc s.st j) := by
  cases j with
  | seqaDataR x | seqaDataW x v => cases hj
  | crStdW x v | crPixdepthW v => exact (decodedChip_decodedChip P _).symm
  | seqMc2W v =>
    have hm : s.st.newMode = true := hd
    simp [chipAfter_seqMc2W, hm]
  | dacCmdW v =>
    have ha : s.st.dacState = .active := by simpa [runsDecoder] using hd
    simp [chipAfter_dacCmdW, ha]
  | _ => cases hd

/-- What an operation but reset does to the bank selectors: nothing; or it sets the write bank, which the read bank follows unless separated; or
it sets the read bank alone, while separated (R118, R161, R192, R194). -/
inductive BankStep (P : Params) (c : Chip) (j : Instr) (d : Chip) : Prop where
  | same (hw : d.bankW = c.bankW) (hr : d.bankR = c.bankR)
  | write (hj : (∃ v, j = .seqMc1W v) ∨ aliasEnabled P c = true ∧ ∃ v, j = .bankwW v)
      (hr : d.bankR = if separated P c then c.bankR else d.bankW)
  | read (hj : (∃ v, j = .gcExtaW v) ∨ aliasEnabled P c = true ∧ ∃ v, j = .bankrW v) (hsep : separated P c = true)
      (hw : d.bankW = c.bankW)

theorem chipAfter_bankStep (hr : j ≠ .reset) : BankStep P c j (chipAfter P misc c j) := by
  cases j with
  | reset => exact absurd rfl hr
  | seqMc1W v =>
    refine .write (.inl ⟨v, rfl⟩) ?_
    cases hm : c.newMode <;> simp [chipAfter_seqMc1W, hm, writeBank_frame] <;> rfl
  | bankwW v =>
    by_cases hen : aliasEnabled P c = true
    · exact .write (.inr ⟨hen, v, rfl⟩) (by simp [chipAfter_bankwW, hen, writeBank_frame])
    · exact .same (by simp [chipAfter_bankwW, hen]) (by simp [chipAfter_bankwW, hen])
  | gcExtaW v =>
    by_cases hsep : separated P c = true
    · exact .read (.inl ⟨v, rfl⟩) hsep rfl
    · exact .same rfl (by simp [chipAfter_gcExtaW, hsep])
  | bankrW v =>
    by_cases hon : (aliasEnabled P c && separated P c) = true
    · obtain ⟨hen, hsep⟩ := Bool.and_eq_true_iff.1 hon
      exact .read (.inr ⟨hen, v, rfl⟩) hsep (by simp [chipAfter_bankrW, hon])
    · exact .same (by simp [chipAfter_bankrW, hon]) (by simp [chipAfter_bankrW, hon])
  | seqMc2W v | dacCmdR | dacCmdW v => exact .same (part_of_ite Chip.bankW rfl rfl) (part_of_ite Chip.bankR rfl rfl)
  | _ => exact .same rfl rfl

end Sys2Proof.Machine
end

section
/-! The Mode Decoder as a whole (44_mode_decoder.md): the clock of a pass, the number of flags it asserts, and the operations that run one. -/

namespace Sys2Proof.Machine

variable {P : Params} {c : Chip} {i : Instr} {s t : State}

/-! ### The clock (R176, R178) -/

/-- Every entry of the clock table is a multiple of 4, so that the divisions by 2 and 4 are exact. -/
theorem four_dvd_clockTable (k : BitVec 4) : 4 ∣ clockTable k := by
  revert k
  decide

/-- Settles O44: the frame is the pass's own; the number of the divisor field picks the division, exact at the codes 1 and 2 because every table
entry is a multiple of 4. -/
theorem decodePassResolvesTheClock : Obligations.DecodePassResolvesTheClock := by
  intro s clk d
  have hclk : 4 ∣ clk := four_dvd_clockTable s.st.clockIdx
  have code {k : BitVec 2} (h : d = k.toNat) : resolvedClock s.params s.st = dividedClock k clk := by
    rw [resolvedClock, field2_eq_iff.mpr h]
  refine ⟨resolvedClock s.params s.st, fun h0 => ?_, fun h1 => ?_, fun h2 => ?_, fun h3 => ?_, rfl⟩
  · exact code (k := 0) h0
  · rw [code (k := 1) h1]
    show 2 * (clk / 2) = clk
    omega
  · rw [code (k := 2) h2]
    show 4 * (clk / 4) = clk
    omega
  · rw [code (k := 3) h3]
    show 3 * (2 * clk / 3) ≤ 2 * clk ∧ 2 * clk < 3 * (2 * clk / 3) + 3
    omega

/-! ### The number of flags (R182) -/

/-- How many flags a pass asserts, by the depth-select code. -/
theorem depthFlags_decodedChip (P : Params) (c : Chip) :
    depthFlags (decodedChip P c) =
      if depthSelect P c = 3 ∨ (depthSelect P c = 0 ∧ suppressed P c = true) then 0 else 1 := by
  have codes : ∀ k : BitVec 2, k = 0 ∨ k = 1 ∨ k = 2 ∨ k = 3 := by decide
  rcases codes (depthSelect P c) with h | h | h | h
  · cases hs : suppressed P c <;> simp [depthFlags, h, hs]
  · have hone : ∀ b : Bool, (!b).toNat + b.toNat = 1 := by decide
    simpa [depthFlags, h, bne] using hone (dacNibble c == 3)
  · simp [depthFlags, h]
  · simp [depthFlags, h]

/-- Settles O46: the pass asserts no flag in the two cases and one flag otherwise. -/
theorem atMostOneDepthFlag : Obligations.AtMostOneDepthFlag := by
  intro P c
  rw [depthFlags_decodedChip]
  split
  next h => exact ⟨Nat.zero_le 1, fun h0 => absurd h0 Nat.zero_ne_one, fun hn => absurd h hn⟩
  next h => exact ⟨Nat.le_refl 1, fun _ => h, fun _ => rfl⟩

/-! ### The operations that run a pass (R181) -/

theorem exec_of_runsDecoder (he : exec i s = .next t) (hd : runsDecoder s i = true) : t.st = decodedChip s.params t.st := by
  rw [exec_st he]
  exact chipAfter_of_runsDecoder (isAliasData_direct ..) ((runsDecoder_direct s i).trans hd)

theorem exec_keeps_decoderPart (he : exec i s = .next t) (hr : i ≠ .reset) (hd : runsDecoder s i = false) :
    decoderPart t.st = decoderPart s.st := by
  rw [exec_st he]
  exact chipAfter_decoderPart (direct_ne_reset hr) ((runsDecoder_direct s i).trans hd)

/-- Settles O47: the timing history grows by the resolved clock exactly where a pass runs, and the outputs are then those of the pass, else those
of before. -/
theorem decoderRunsExactlyOn : Obligations.DecoderRunsExactlyOn := by
  intro i s t he
  have hlog := exec_tlog he
  refine ⟨fun hd => ?runs, fun hd => ⟨?quiet, fun hr => ?outputs⟩⟩
  case runs =>
    have hst := exec_of_runsDecoder he hd
    refine ⟨hst, resolvedClock s.params t.st, ?_, by rw [hlog, if_pos hd]⟩
    rw [hst, decodedChip_pixelClock, resolvedClock_decodedChip]
  case quiet => rw [hlog, hd, if_neg Bool.false_ne_true]
  case outputs => simpa only [decoderPart, Prod.mk.injEq] using exec_keeps_decoderPart he hr hd

end Sys2Proof.Machine
end

section
/-! Flags and bank selectors (10_state.md R36; 45_bank_alias.md R195), and the reads with side effects (20_memory.md R53). -/

namespace Sys2Proof.Machine

variable {P : Params} {misc : Byte} {c : Chip} {i j : Instr} {s t : State}

/-! ### Flags (R36) -/

theorem exec_newMode (he : exec i s = .next t) (hr : i ≠ .reset) :
    t.st.newMode = if isUnlock s.params i then isRead i else s.st.newMode := by
  rw [exec_st he, chipAfter_newMode (isAliasData_direct ..) (direct_ne_reset hr), isUnlock_direct, isRead_direct]

theorem exec_keeps_detectorPart (he : exec i s = .next t) (hr : i ≠ .reset) (hcmd : isDacCommand i = false)
    (hrst : isDacReset i = false) : detectorPart t.st = detectorPart s.st := by
  rw [exec_st he]
  exact chipAfter_detectorPart (direct_ne_reset hr) ((isDacCommand_direct ..).trans hcmd) ((isDacReset_direct ..).trans hrst)

theorem exec_keeps_aperturePart (he : exec i s = .next t) (hr : i ≠ .reset) (hl : ∀ v, i ≠ .crLinapW v) :
    aperturePart t.st = aperturePart s.st := by
  rw [exec_st he]
  exact chipAfter_aperturePart (direct_ne_reset hr) fun v hd => hl v (eq_of_direct_eq hd rfl)

theorem exec_keeps_mmioPart (he : exec i s = .next t) (hr : i ≠ .reset) (hm : ∀ v, i ≠ .crMmioW v) :
    mmioPart t.st = mmioPart s.st := by
  rw [exec_st he]
  exact chipAfter_mmioPart (direct_ne_reset hr) fun v hd => hm v (eq_of_direct_eq hd rfl)

theorem exec_keeps_altPostPart (he : exec i s = .next t) (hr : i ≠ .reset) (hp : ∀ v, direct s.params i ≠ .seqPum1W v) :
    altPostPart t.st = altPostPart s.st := by
  rw [exec_st he]
  exact chipAfter_altPostPart (direct_ne_reset hr) hp

/-- The reset transaction leaves the chip state of R39. -/
theorem exec_reset_st (he : exec .reset s = .next t) : t.st = Chip.reset s.params.revisionId :=
  exec_st he

/-- Settles O52: each flag belongs to a part of the chip state that only the listed operations change; the mode flag's value after an access to
the unlock index is the access's direction. -/
theorem flagsChangeOnlyAsListed : Obligations.FlagsChangeOnlyAsListed := by
  intro i s t he
  by_cases hr : i = .reset
  case pos =>
    subst hr
    have hst := exec_reset_st he
    refine ⟨fun _ => .inl rfl, nofun, fun _ => .inl rfl, fun _ => .inl rfl, fun _ => .inl rfl, fun _ => .inl rfl,
      fun _ => .inl rfl, fun _ => ?_⟩
    rw [hst]
    exact ⟨rfl, rfl, rfl, rfl, rfl, rfl, rfl⟩
  case neg =>
    refine ⟨fun hne => .inr ?mode, fun hu => ?unlock, fun hne => .inr ?detector, fun hne => .inr ?aperture,
      fun hne => .inr ?mmio, fun hne => .inr ?altPost, fun hne => .inr ?depth, fun h => absurd h hr⟩
    case mode =>
      by_contra hu
      exact hne (by rw [exec_newMode he hr, if_neg hu])
    case unlock => rw [exec_newMode he hr, if_pos hu]
    case detector =>
      by_contra hd
      obtain ⟨hcmd, hrst⟩ := not_or.1 hd
      exact hne (congrArg Prod.fst
        (exec_keeps_detectorPart he hr (Bool.eq_false_of_not_eq_true hcmd) (Bool.eq_false_of_not_eq_true hrst)))
    case aperture =>
      by_contra hl
      have hkeep := exec_keeps_aperturePart he hr (not_exists.1 hl)
      simp only [aperturePart, Prod.mk.injEq] at hkeep
      obtain ⟨-, -, hactive, hsize⟩ := hkeep
      exact hne.elim (· hactive) (· hsize)
    case mmio =>
      by_contra hm
      exact hne (congrArg Prod.snd (exec_keeps_mmioPart he hr (not_exists.1 hm)))
    case altPost =>
      by_contra hp
      exact hne (congrArg Prod.snd (exec_keeps_altPostPart he hr fun v hd =>
        hp ((eq_or_aliasData_of_direct_eq hd rfl rfl).imp_left fun h => ⟨v, h⟩)))
    case depth =>
      by_contra hd
      have hkeep := exec_keeps_decoderPart he hr (Bool.eq_false_of_not_eq_true hd)
      simp only [decoderPart, Prod.mk.injEq] at hkeep
      obtain ⟨h8, h15, h16, h32, -⟩ := hkeep
      simp [h8, h15, h16, h32] at hne

/-! ### Bank selectors (R195) -/

theorem exec_bankStep (he : exec i s = .next t) (hr : i ≠ .reset) :
    BankStep s.params s.st (direct s.params i) t.st := by
  rw [exec_st he]
  exact chipAfter_bankStep (direct_ne_reset hr)

/-- The operation of a bank step that sets the write bank, as the statement lists it. -/
theorem writes_bankW_listed {en : Prop}
    (h : (∃ v, direct P i = .seqMc1W v) ∨ en ∧ ∃ v, direct P i = .bankwW v) :
    (∃ v, i = .seqMc1W v) ∨ (∃ x v, i = .seqaDataW x v ∧ seqReg P x = .mc1) ∨ (en ∧ ∃ v, i = .bankwW v) := by
  rcases h with ⟨v, hd⟩ | ⟨hen, v, hd⟩
  · exact (eq_or_aliasData_of_direct_eq hd rfl rfl).imp (fun h => ⟨v, h⟩) .inl
  · exact .inr (.inr ⟨hen, v, eq_of_direct_eq hd rfl⟩)

/-- Settles O53: the bank step of the operation that runs, case by case. -/
theorem banksChangeOnlyAsListed : Obligations.BanksChangeOnlyAsListed := by
  intro i s t he en sep
  by_cases hr : i = .reset
  case pos =>
    have hbanks : t.st.bankR = t.st.bankW := by
      subst hr
      rw [exec_reset_st he]
      rfl
    exact ⟨fun _ => .inl hr, fun _ _ => .inl hr, fun _ _ => ⟨hbanks, .inl hr⟩⟩
  case neg =>
    cases exec_bankStep he hr with
    | same hw hR => exact ⟨fun h => absurd hw h, fun h => absurd hR h, fun h => absurd hR h⟩
    | write hj hR =>
      have hlisted := writes_bankW_listed hj
      refine ⟨fun _ => .inr hlisted, fun hne hsep => ?_, fun _ hsep => ⟨?_, .inr hlisted⟩⟩
      · exact absurd (hR.trans (if_pos hsep)) hne
      · exact hR.trans (if_neg (Bool.eq_false_iff.1 hsep))
    | read hj hsep hw =>
      refine ⟨fun h => absurd hw h, fun _ _ => .inr ?_, fun _ hclear => ?_⟩
      · rcases hj with ⟨v, hd⟩ | ⟨hen, v, hd⟩
        · exact .inl ⟨v, eq_of_direct_eq hd rfl⟩
        · exact .inr ⟨hen, v, eq_of_direct_eq hd rfl⟩
      · exact absurd (hclear.symm.trans hsep) Bool.false_ne_true

/-! ### Reads with side effects (R53) -/

/-- A read leaves the chip state, or it is a counted command-port read, a reset-port read or a read of the unlock index. -/
theorem chipAfter_of_read (hread : isRead j = true) :
    chipAfter P misc c j = c ∨ (j = .dacCmdR ∧ c.dacState ≠ .active) ∨ isDacReset j = true ∨ isUnlock P j = true := by
  cases j <;> cases hread
  case seqUnlockR => exact .inr (.inr (.inr rfl))
  case dacRstR r => exact .inr (.inr (.inl rfl))
  case dacCmdR =>
    by_cases ha : c.dacState = .active
    · exact .inl (if_pos ha)
    · exact .inr (.inl ⟨rfl, ha⟩)
  all_goals exact .inl rfl

theorem runsDecoder_of_read (hread : isRead i = true) : runsDecoder s i = false := by
  cases i <;> cases hread <;> rfl

/-- Settles O55: a read writes nothing on the host's side and runs no decode pass, and what it leaves of the chip state is the case analysis of the
read that runs. -/
theorem readsWithSideEffects : Obligations.ReadsWithSideEffects := by
  intro i s t hread he
  have hdirect : isRead (direct s.params i) = true := (isRead_direct ..).trans hread
  refine ⟨?host, ?tlog, fun hne => ?chip⟩
  case host => rw [exec_host he, hostEffect_of_read hdirect]; rfl
  case tlog => rw [exec_tlog he, runsDecoder_of_read hread, if_neg Bool.false_ne_true]
  case chip =>
    rw [exec_st he] at hne
    rcases (chipAfter_of_read hdirect).resolve_left hne with ⟨hj, ha⟩ | hj | hj
    · exact .inl ⟨eq_of_direct_eq hj rfl, ha⟩
    · exact .inr (.inl ((isDacReset_direct ..).symm.trans hj))
    · exact .inr (.inr ((isUnlock_direct ..).symm.trans hj))

end Sys2Proof.Machine
end

section
/-! Writes repeated (20_memory.md R54): a second run of a write finds its own chip state and its own byte in place. -/

namespace Sys2Proof.Machine

variable {P : Params} {misc : Byte} {c d : Chip} {i j : Instr} {s t u : State}

/-! ### The chip state -/

/-- A bank write repeated is the one write: it changes neither the separated bit nor, while that is set, the read bank. -/
theorem writeBank_writeBank (P : Params) (b : BitVec 5) (c : Chip) :
    writeBank P b (writeBank P b c) = writeBank P b c := by
  have hsep : separated P (writeBank P b c) = separated P c := rfl
  rw [writeBank_frame P b (writeBank P b c), hsep]
  cases hs : separated P c <;> simp [writeBank_frame, hs]

/-- An operation that leaves a chip state it does not change does nothing more when it is repeated. -/
theorem chipAfter_repeated (hc : chipAfter P misc c j = d) (hd : chipAfter P misc d j = d) :
    chipAfter P misc (chipAfter P misc c j) j = chipAfter P misc c j := by
  rw [hc, hd]

/-- A write, the command port's apart, leaves the chip state that a second run of it leaves: neither the mode nor the enabled and separated
bits change, which decide what is written. -/
theorem chipAfter_chipAfter (hj : isAliasData j = false) (hread : isRead j = false) (hcmd : isDacCommand j = false) :
    chipAfter P misc (chipAfter P misc c j) j = chipAfter P misc c j := by
  cases j <;> cases hread
  case seqaDataW x v => cases hj
  case dacCmdW v => cases hcmd
  case crStdW x v => exact decodedChip_decodedChip P _
  case crPixdepthW v => exact decodedChip_decodedChip P _
  case seqMc2W v =>
    by_cases hm : c.newMode = true
    · exact chipAfter_repeated (if_pos hm) ((if_pos hm).trans (decodedChip_decodedChip P _))
    · exact chipAfter_repeated (if_neg hm) (if_neg hm)
  case seqMc1W v =>
    by_cases hm : c.newMode = true
    · exact chipAfter_repeated (if_pos hm) ((if_pos hm).trans (writeBank_writeBank P _ { c with mc1New := invertBit1 v }))
    · exact chipAfter_repeated (if_neg hm) ((if_neg hm).trans (writeBank_writeBank P _ { c with mc1Old := v }))
  case bankwW v =>
    by_cases hen : aliasEnabled P c = true
    · exact chipAfter_repeated (if_pos hen) ((if_pos hen).trans (writeBank_writeBank P _ c))
    · exact chipAfter_repeated (if_neg hen) (if_neg hen)
  case bankrW v =>
    by_cases hon : (aliasEnabled P c && separated P c) = true
    · exact chipAfter_repeated (if_pos hon) (if_pos hon)
    · exact chipAfter_repeated (if_neg hon) (if_neg hon)
  case gcExtaW v =>
    have hsep : separated P (chipAfter P misc c (.gcExtaW v)) = separated P c := rfl
    rw [chipAfter_gcExtaW P misc (chipAfter P misc c (.gcExtaW v)), hsep, chipAfter_gcExtaW]
    cases separated P c <;> rfl
  all_goals rfl

/-! ### The host's side -/

/-- Which write a command-free operation makes does not depend on what the operation does to the chip state. -/
theorem hostEffect_chipAfter (hcmd : isDacCommand j = false) :
    hostEffect P (chipAfter P misc c j) j = hostEffect P c j := by
  cases j with
  | dacCmdW v => cases hcmd
  | _ => rfl

/-- One write made twice is the one write, if the byte stores are canonical. -/
theorem HostEffect.apply_apply {h : HostSide} (hs : storageInv P h) (e : HostEffect) :
    e.apply P (e.apply P h) = e.apply P h := by
  obtain ⟨hseq, hcrtc, hgc, hgen, hvram, -⟩ := hs
  cases e with
  | none => rfl
  | portWrite p v => exact standInPortWrite_twice P h p v
  | stdWrite g i v =>
    cases g with
    | seq => simp only [HostEffect.apply, HostSide.writeStd, Memory.write_write _ _ _ hseq]
    | crtc => simp only [HostEffect.apply, HostSide.writeStd, Memory.write_write _ _ _ hcrtc]
    | gc => simp only [HostEffect.apply, HostSide.writeStd, Memory.write_write _ _ _ hgc]
  | genWrite o v => simp only [HostEffect.apply, Memory.write_write _ _ _ hgen]
  | vramWrite a v => simp only [HostEffect.apply, Memory.write_write _ _ _ hvram]

/-! ### The statement -/

theorem exec_twice_st (hread : isRead i = false) (hcmd : isDacCommand i = false) (ht : exec i s = .next t)
    (hu : exec i t = .next u) : u.st = t.st := by
  rw [exec_st hu, exec_params ht, exec_misc ht, exec_st ht]
  exact chipAfter_chipAfter (isAliasData_direct ..) ((isRead_direct ..).trans hread) ((isDacCommand_direct ..).trans hcmd)

theorem exec_twice_host (hs : storageInv s.params s.host) (hcmd : isDacCommand i = false) (ht : exec i s = .next t)
    (hu : exec i t = .next u) : u.host = t.host := by
  rw [exec_host hu, exec_params ht, exec_st ht, hostEffect_chipAfter ((isDacCommand_direct ..).trans hcmd), exec_host ht]
  exact HostEffect.apply_apply hs _

/-- Settles O56: the chip state and the host's write of an operation are each idempotent, and the timing history grows only by decode passes. -/
theorem writesAreIdempotent : Obligations.WritesAreIdempotent := by
  refine ⟨fun i s t u hs hread hcmd ht hu => ?_, fun s t v ha ht => ?count⟩
  · have hlog := exec_tlog hu
    refine ⟨exec_twice_st hread hcmd ht hu, exec_twice_host hs hcmd ht hu, fun hd => ?quiet, fun hd => ?runs⟩
    case quiet => rw [hlog, hd, if_neg Bool.false_ne_true]
    case runs => exact ⟨_, by rw [hlog, if_pos hd]⟩
  case count =>
    have hst : t.st = detectorCount s.st := (exec_st ht).trans (chipAfter_of_command rfl ha)
    rw [hst, detectorCount_count]

end Sys2Proof.Machine
end

section
/-! The DAC Passthrough Detector over a run of operations (47_dac.md R210; 70_reset_and_hazards.md R254). -/

namespace Sys2Proof.Machine

variable {P : Params} {misc : Byte} {c d : Chip} {i j : Instr} {s t : State}

/-- The detector's invariant speaks of the detector's part alone. -/
theorem detectorInv_congr (h : detectorPart d = detectorPart c) (hc : detectorInv c) : detectorInv d := by
  simp only [detectorPart, Prod.mk.injEq] at h
  obtain ⟨hstate, hcount, -⟩ := h
  simpa only [detectorInv, hstate, hcount] using hc

/-- Counting an access keeps the invariant: outside Active the count is below 4 (R210). -/
theorem detectorInv_detectorCount (hc : detectorInv c) (ha : c.dacState ≠ .active) : detectorInv (detectorCount c) := by
  obtain ⟨hidle, harming, -⟩ := hc
  have hcount : c.dacCount = 0 ∨ c.dacCount ∈ [1, 2, 3] := by
    cases hs : c.dacState with
    | idle => exact .inl (hidle.1 hs)
    | arming => exact .inr (harming.1 hs)
    | active => exact absurd hs ha
  simp only [List.mem_cons, List.not_mem_nil, or_false] at hcount
  rcases hcount with h | h | h | h <;> simp [detectorInv, h]

theorem detectorInv_detectorIdle (c : Chip) : detectorInv (detectorIdle c) := by
  simp [detectorInv]

/-- What a run from an idle detector has done so far: the count is the number of command-port accesses, the command byte is the first one. -/
structure ArmedBy (n : Nat) (cmd : Byte) (c : Chip) : Prop where
  inv : detectorInv c
  count : c.dacCount = n
  command : c.dacCmd = cmd

/-- One operation of the sequence: a command-port access counts, and every other one leaves the detector alone. -/
theorem armedBy_exec {n : Nat} {cmd : Byte} (h : ArmedBy n cmd s.st) (hr : i ≠ .reset) (hrst : isDacReset i = false)
    (hn : n + (if isDacCommand i then 1 else 0) ≤ 4) (he : exec i s = .next t) :
    ArmedBy (n + if isDacCommand i then 1 else 0) cmd t.st := by
  obtain ⟨hinv, hcount, hcommand⟩ := h
  cases hcmd : isDacCommand i with
  | true =>
    rw [hcmd, if_pos rfl] at hn
    have ha : s.st.dacState ≠ .active := fun ha => by
      obtain ⟨-, -, hactive⟩ := hinv
      have := hactive.1 ha
      omega
    have hst : t.st = detectorCount s.st := by
      rw [exec_st he, chipAfter_of_command ((isDacCommand_direct ..).trans hcmd) ha]
    rw [hst]
    exact ⟨detectorInv_detectorCount hinv ha, by simp [hcount], hcommand⟩
  | false =>
    have hkeep := exec_keeps_detectorPart he hr hcmd hrst
    have hinv' := detectorInv_congr hkeep hinv
    simp only [detectorPart, Prod.mk.injEq] at hkeep
    obtain ⟨-, hcount', hcommand'⟩ := hkeep
    exact ⟨hinv', hcount'.trans hcount, hcommand'.trans hcommand⟩

/-- The whole sequence, by induction on the list, from any count that the sequence does not carry beyond 4. -/
theorem armedBy_execAll {is : List Instr} {n : Nat} {cmd : Byte} (h : ArmedBy n cmd s.st)
    (hall : ∀ i ∈ is, i ≠ .reset ∧ isDacReset i = false) (hn : n + is.countP isDacCommand ≤ 4)
    (he : execAll is s = .next t) : ArmedBy (n + is.countP isDacCommand) cmd t.st := by
  induction is generalizing s n with
  | nil =>
    cases he
    exact h
  | cons i is ih =>
    obtain ⟨u, hu, he⟩ := execAll_cons_next he
    obtain ⟨⟨hr, hrst⟩, hrest⟩ := List.forall_mem_cons.1 hall
    rw [List.countP_cons] at hn ⊢
    have hstep := armedBy_exec h hr hrst (by omega) hu
    have htail := ih hstep hrest (by omega) he
    rwa [Nat.add_assoc, Nat.add_comm (ite _ _ _)] at htail

/-- While Active a command-port read answers the command byte (R211). -/
theorem exec_dacCmdR_of_active (ha : s.st.dacState = .active) :
    exec .dacCmdR s = .next { s with result := some s.st.dacCmd } :=
  if_pos ha

/-- While Active a command-port write latches its byte, returns to Idle and runs a decode pass (R212). -/
theorem exec_dacCmdW_of_active (ha : s.st.dacState = .active) (v : Byte) :
    exec (.dacCmdW v) s =
      .next { modeDecode (s.withChip (detectorIdle { s.st with dacCmd := v })) with result := none } :=
  if_pos ha

/-- Settles O58: the count follows the accesses along the list, and a count of 4 is the Active state. -/
theorem dacArmingSequence : Obligations.DacArmingSequence := by
  intro is s t hidle hzero hall hle he
  have hstart : ArmedBy 0 s.st.dacCmd s.st := ⟨by simp [detectorInv, hidle, hzero], hzero, rfl⟩
  obtain ⟨⟨-, -, hactive⟩, hcount, hcommand⟩ := armedBy_execAll hstart hall (by omega) he
  rw [Nat.zero_add] at hcount
  refine ⟨hcount, hcommand, fun hfour => ?_⟩
  have ha : t.st.dacState = .active := hactive.2 (hcount.trans hfour)
  exact ⟨ha, ⟨_, exec_dacCmdR_of_active ha, congrArg some hcommand⟩,
    fun v => ⟨_, exec_dacCmdW_of_active ha v, rfl, rfl⟩⟩

end Sys2Proof.Machine
end


section
/-! One step (00_scope.md R5; 60_exceptions.md R233, R236): an equation for each thing a step can find. -/

namespace Sys2Proof.Machine

variable {i : Instr} {s t : State} {r : BusRequest} {e : HostEvent} {rest : List HostEvent}

theorem step_of_illegal (hl : paramsLegal s.params = false) : step s = .refused .illegalParameters := by
  rw [step, hl, if_neg Bool.false_ne_true]

theorem step_of_idle (hl : paramsLegal s.params = true) (hp : s.pending = []) : step s = .next s := by
  rw [step, if_pos hl, hp]

theorem step_of_op (hl : paramsLegal s.params = true) (hp : s.pending = .access r :: rest)
    (hd : decodeKey s.params s.host.misc (requestKey s.params s.host r) = .op i) : step s = exec i (s.begin r rest) := by
  simp only [step, hl, hp, hd, if_true]

theorem step_of_reserved {why : ReservedKey} (hl : paramsLegal s.params = true) (hp : s.pending = .access r :: rest)
    (hd : decodeKey s.params s.host.misc (requestKey s.params s.host r) = .reserved why) :
    step s = .refused (.reservedKey why) := by
  simp only [step, hl, hp, hd, if_true]

theorem step_of_action (hl : paramsLegal s.params = true) (hp : s.pending = e :: rest) (he : ∀ r, e ≠ .access r) :
    step s = .next { s with host := hostAction s.params s.host e, pending := rest } := by
  rw [step, if_pos hl, hp]
  cases e with
  | access r => exact absurd rfl (he r)
  | _ => rfl

/-- The head of the pending list is a transaction or an action of the host's. -/
theorem access_or_action (e : HostEvent) : (∃ r, e = .access r) ∨ ∀ r, e ≠ .access r := by
  cases e with
  | access r => exact .inl ⟨r, rfl⟩
  | _ => exact .inr nofun

/-- What a step that answers a next state did: nothing, one operation, or one action of the host's. -/
theorem step_next (h : step s = .next t) :
    paramsLegal s.params = true ∧
      (t = s ∨ (∃ i r rest, exec i (s.begin r rest) = .next t) ∨
        ∃ e rest, t = { s with host := hostAction s.params s.host e, pending := rest }) := by
  have hl : paramsLegal s.params = true := by
    by_contra hl
    rw [step_of_illegal (Bool.eq_false_of_not_eq_true hl)] at h
    cases h
  refine ⟨hl, ?_⟩
  cases hp : s.pending with
  | nil =>
    rw [step_of_idle hl hp] at h
    exact .inl (Host.Outcome.next.inj h).symm
  | cons e rest =>
    rcases access_or_action e with ⟨r, rfl⟩ | he
    · obtain ⟨i, -, hi⟩ := step_access_next hp h
      exact .inr (.inl ⟨i, r, rest, hi⟩)
    · rw [step_of_action hl hp he] at h
      exact .inr (.inr ⟨e, rest, (Host.Outcome.next.inj h).symm⟩)

/-- Settles O9: it is the step's equation for a transaction with an operation's key. -/
theorem stepRunsTheDecodedOperation : Obligations.StepRunsTheDecodedOperation :=
  fun _ _ _ _ hl hp hd => step_of_op hl hp hd

/-- Settles O11: the step's equations give each refusal; conversely an operation never refuses, and the idle step and the host's action answer
a next state. -/
theorem stepRefusesExactly : Obligations.StepRefusesExactly := by
  intro s x
  constructor
  case mp =>
    intro h
    cases hl : paramsLegal s.params with
    | false =>
      rw [step_of_illegal hl] at h
      exact .inl ⟨rfl, (Host.Outcome.refused.inj h).symm⟩
    | true =>
      cases hp : s.pending with
      | nil => rw [step_of_idle hl hp] at h; cases h
      | cons e rest =>
        rcases access_or_action e with ⟨r, rfl⟩ | he
        · cases hd : decodeKey s.params s.host.misc (requestKey s.params s.host r) with
          | op i =>
            obtain ⟨t, ht⟩ := exec_completes i (s.begin r rest)
            rw [step_of_op hl hp hd, ht] at h
            cases h
          | reserved why =>
            rw [step_of_reserved hl hp hd] at h
            exact .inr ⟨rfl, r, rest, why, rfl, hd, (Host.Outcome.refused.inj h).symm⟩
        · rw [step_of_action hl hp he] at h; cases h
  case mpr =>
    rintro (⟨hl, rfl⟩ | ⟨hl, r, rest, why, hp, hd, rfl⟩)
    · exact step_of_illegal hl
    · exact step_of_reserved hl hp hd

end Sys2Proof.Machine
end

section
/-! The aperture address (42_crtc_regs.md R135): its two parts, each at its place. -/

namespace Sys2Proof.Machine

/-- The two high bits of a byte, in place. -/
theorem toNat_and_high (v : Byte) : (v &&& 0xC0).toNat = v.toNat / 64 * 64 := by
  have hbits : v &&& (0xC0 : Byte) = (v >>> 6) <<< 6 := by
    refine BitVec.eq_of_getLsbD_eq fun i hi => ?_
    interval_cases i <;> simp
  rw [hbits, BitVec.toNat_shiftLeft, BitVec.toNat_ushiftRight, Nat.shiftRight_eq_div_pow, Nat.shiftLeft_eq]
  have := v.isLt
  omega

/-- The low four bits of a byte. -/
theorem toNat_and_low (v : Byte) : (v &&& 0x0F).toNat = v.toNat % 16 := by
  rw [BitVec.toNat_and]
  exact Nat.and_two_pow_sub_one_eq_mod v.toNat 4

/-- Bits 7:6 of the byte stand at 25:24 of the address and bits 3:0 at 23:20; the parts do not overlap. -/
theorem apertureAddr_eq (v : Byte) : apertureAddr v = v.toNat / 64 * 2 ^ 24 + v.toNat % 16 * 2 ^ 20 := by
  have hhigh : (v.toNat / 64 * 64) <<< 18 = (v.toNat / 64) <<< 24 := by
    rw [Nat.shiftLeft_eq, Nat.shiftLeft_eq, Nat.mul_assoc]
  have hlow : (v.toNat % 16) <<< 20 < 2 ^ 24 := by
    rw [Nat.shiftLeft_eq]
    omega
  rw [apertureAddr, toNat_and_high, toNat_and_low, hhigh, ← Nat.shiftLeft_add_eq_or_of_lt hlow, Nat.shiftLeft_eq,
    Nat.shiftLeft_eq]

theorem apertureAddr_lt (v : Byte) : apertureAddr v < 2 ^ 26 := by
  rw [apertureAddr_eq]
  have := v.isLt
  omega

end Sys2Proof.Machine
end

section
/-! The invariant of the states a device can be in (10_state.md R27, R29 to R33, R37): reset meets it and every step keeps it. -/

namespace Sys2Proof.Machine

variable {P : Params} {misc : Byte} {c d : Chip} {h : HostSide} {i j : Instr} {s t : State}

/-! ### The reset state -/

theorem chipReset_detectorInv (r : Byte) : detectorInv (Chip.reset r) := by
  simp [detectorInv, Chip.reset]

theorem chipReset_apertureInv (P : Params) (r : Byte) : apertureInv P (Chip.reset r) := by
  simp [apertureInv, Chip.reset]

theorem chipReset_outputFlagsInv (P : Params) (r : Byte) : outputFlagsInv P (Chip.reset r) := by
  simp [outputFlagsInv, Chip.reset]

theorem chipReset_depthInv (r : Byte) : depthInv (Chip.reset r) :=
  ⟨Nat.zero_le 1, fun _ => rfl⟩

/-- Settles O48: the reset chip state meets its clauses, and every byte store is empty. -/
theorem resetStateMeetsInv : Obligations.ResetStateMeetsInv :=
  ⟨rfl, chipReset_detectorInv _, chipReset_apertureInv _ _, chipReset_outputFlagsInv _ _, chipReset_depthInv _,
    by simp [storageInv, Memory.wf, State.reset, HostSide.standIn]⟩

/-! ### The chip state's clauses under one operation -/

/-- While Active a command-port read leaves the chip state and a write idles the detector (R211, R212). -/
theorem chipAfter_of_command_active (hcmd : isDacCommand j = true) (ha : c.dacState = .active) :
    chipAfter P misc c j = c ∨ ∃ v, chipAfter P misc c j = decodedChip P (detectorIdle { c with dacCmd := v }) := by
  cases j with
  | dacCmdR => exact .inl (if_pos ha)
  | dacCmdW v => exact .inr ⟨v, if_pos ha⟩
  | _ => cases hcmd

theorem chipAfter_detectorInv (hc : detectorInv c) : detectorInv (chipAfter P misc c j) := by
  by_cases hr : j = .reset
  · subst hr
    exact chipReset_detectorInv _
  cases hrst : isDacReset j with
  | true =>
    rw [chipAfter_of_dacReset hrst]
    exact detectorInv_detectorIdle c
  | false =>
    cases hcmd : isDacCommand j with
    | false => exact detectorInv_congr (chipAfter_detectorPart hr hcmd hrst) hc
    | true =>
      by_cases ha : c.dacState = .active
      · rcases chipAfter_of_command_active hcmd ha with hd | ⟨v, hd⟩
        · rwa [hd]
        · rw [hd]
          exact detectorInv_congr rfl (detectorInv_detectorIdle { c with dacCmd := v })
      · rw [chipAfter_of_command hcmd ha]
        exact detectorInv_detectorCount hc ha

theorem apertureInv_congr (h : aperturePart d = aperturePart c) (hc : apertureInv P c) : apertureInv P d := by
  simp only [aperturePart, Prod.mk.injEq] at h
  obtain ⟨hcell, haddr, hactive, hsize⟩ := h
  simpa only [apertureInv, hcell, haddr, hactive, hsize] using hc

theorem chipAfter_apertureInv (hc : apertureInv P c) : apertureInv P (chipAfter P misc c j) := by
  by_cases hr : j = .reset
  · subst hr
    exact chipReset_apertureInv ..
  by_cases hl : ∃ v, j = .crLinapW v
  · obtain ⟨v, rfl⟩ := hl
    exact ⟨rfl, apertureAddr_lt v, rfl, rfl⟩
  · exact apertureInv_congr (chipAfter_aperturePart hr (not_exists.1 hl)) hc

theorem mmioInv_congr (h : mmioPart d = mmioPart c) (hc : c.mmioActive = c.crMmio.getLsbD P.mmioBit.val) :
    d.mmioActive = d.crMmio.getLsbD P.mmioBit.val := by
  simp only [mmioPart, Prod.mk.injEq] at h
  obtain ⟨hcell, hflag⟩ := h
  rw [hcell, hflag, hc]

theorem altPostInv_congr (h : altPostPart d = altPostPart c) (hc : c.altPost = c.pum1.getLsbD P.pum1AltpostBit.val) :
    d.altPost = d.pum1.getLsbD P.pum1AltpostBit.val := by
  simp only [altPostPart, Prod.mk.injEq] at h
  obtain ⟨hcell, hflag⟩ := h
  rw [hcell, hflag, hc]

theorem chipAfter_outputFlagsInv (hc : outputFlagsInv P c) : outputFlagsInv P (chipAfter P misc c j) := by
  by_cases hr : j = .reset
  · subst hr
    exact chipReset_outputFlagsInv ..
  obtain ⟨hmmio, hpost⟩ := hc
  constructor
  · by_cases hm : ∃ v, j = .crMmioW v
    · obtain ⟨v, rfl⟩ := hm
      rfl
    · exact mmioInv_congr (chipAfter_mmioPart hr (not_exists.1 hm)) hmmio
  · by_cases hp : ∃ v, j = .seqPum1W v
    · obtain ⟨v, rfl⟩ := hp
      rfl
    · exact altPostInv_congr (chipAfter_altPostPart hr (not_exists.1 hp)) hpost

theorem depthInv_congr (h : decoderPart d = decoderPart c) (hc : depthInv c) : depthInv d := by
  simp only [decoderPart, Prod.mk.injEq] at h
  obtain ⟨h8, h15, h16, h32, hclk⟩ := h
  simpa only [depthInv, depthFlags, h8, h15, h16, h32, hclk] using hc

/-- A decode pass asserts at most one flag and leaves a pixel clock (R180, R182). -/
theorem depthInv_decodedChip (P : Params) (c : Chip) : depthInv (decodedChip P c) :=
  ⟨(atMostOneDepthFlag P c).1, nofun⟩

theorem exec_keeps_depthInv (he : exec i s = .next t) (hs : depthInv s.st) : depthInv t.st := by
  by_cases hr : i = .reset
  · subst hr
    rw [exec_reset_st he]
    exact chipReset_depthInv _
  cases hd : runsDecoder s i with
  | true =>
    rw [exec_of_runsDecoder he hd]
    exact depthInv_decodedChip ..
  | false => exact depthInv_congr (exec_keeps_decoderPart he hr hd) hs

theorem chipAfter_revisionInv (hc : c.revision = P.revisionId) : (chipAfter P misc c j).revision = P.revisionId := by
  by_cases hr : j = .reset
  · subst hr
    rfl
  · rw [chipAfter_revision hr, hc]

/-! ### The byte stores -/

/-- A store in canonical form whose addresses lie below `n`. -/
def StoreOk (n : Nat) (m : Memory) : Prop := m.wf ∧ ∀ c ∈ m, c.1 < n

theorem StoreOk.write {n a : Nat} {m : Memory} (hm : StoreOk n m) (ha : a < n) (v : Byte) : StoreOk n (m.write a v) :=
  ⟨Memory.write_wf hm.1 a v, Memory.write_bound hm.2 ha⟩

/-- The clause on the host's side, store by store. -/
structure StoresOk (P : Params) (h : HostSide) : Prop where
  seqStd : StoreOk 256 h.seqStd
  crtcStd : StoreOk 256 h.crtcStd
  gcStd : StoreOk 256 h.gcStd
  genMem : StoreOk 0x20000 h.genMem
  vram : StoreOk P.vramSize h.vram

theorem storageInv_iff : storageInv P h ↔ StoresOk P h := by
  have hgen : (∀ c ∈ h.genMem, c.1 ≤ 0x1FFFF) ↔ ∀ c ∈ h.genMem, c.1 < 0x20000 :=
    forall₂_congr fun _ _ => Nat.lt_succ_iff.symm
  constructor
  · rintro ⟨w1, w2, w3, w4, w5, b1, b2, b3, b4, b5⟩
    exact ⟨⟨w1, b1⟩, ⟨w2, b2⟩, ⟨w3, b3⟩, ⟨w4, hgen.1 b4⟩, ⟨w5, b5⟩⟩
  · rintro ⟨⟨w1, b1⟩, ⟨w2, b2⟩, ⟨w3, b3⟩, ⟨w4, b4⟩, ⟨w5, b5⟩⟩
    exact ⟨w1, w2, w3, w4, w5, b1, b2, b3, hgen.2 b4, b5⟩

/-- One write of an operation keeps the stores, a byte of video memory being written within it. -/
theorem HostEffect.apply_storesOk {e : HostEffect} (hs : StoresOk P h) (ha : ∀ a v, e = .vramWrite a v → a < P.vramSize) :
    StoresOk P (e.apply P h) := by
  cases e with
  | none => exact hs
  | portWrite p v =>
    obtain ⟨-, -, hseq, hcrtc, hgc, hgen, hvram⟩ := standInPortWrite_frame P h p v
    constructor <;> simp only [HostEffect.apply, hseq, hcrtc, hgc, hgen, hvram]
    exacts [hs.seqStd, hs.crtcStd, hs.gcStd, hs.genMem, hs.vram]
  | stdWrite g i v =>
    cases g with
    | seq => exact { hs with seqStd := hs.seqStd.write i.isLt v }
    | crtc => exact { hs with crtcStd := hs.crtcStd.write i.isLt v }
    | gc => exact { hs with gcStd := hs.gcStd.write i.isLt v }
  | genWrite o v => exact { hs with genMem := hs.genMem.write o.isLt v }
  | vramWrite a v => exact { hs with vram := hs.vram.write (ha a v rfl) v }

/-- A write into video memory is at a banked offset, a remainder by its size (R204). -/
theorem hostEffect_vramWrite_lt (hpos : 0 < P.vramSize) {a : Nat} {v : Byte} (he : hostEffect P c j = .vramWrite a v) :
    a < P.vramSize := by
  cases j with
  | fbW o w =>
    by_cases hb : banked c = true
    · have heff : hostEffect P c (.fbW o w) = .vramWrite (effectiveOffset P c.newMode c.bankW o) w := if_pos hb
      rw [heff] at he
      cases he
      exact effectiveOffset_lt hpos _ _ _
    · rw [hostEffect, if_neg hb] at he
      cases he
  | dacCmdW w =>
    rw [hostEffect] at he
    split at he <;> cases he
  | _ => cases he

theorem hostAction_storesOk {e : HostEvent} (hs : StoresOk P h) : StoresOk P (hostAction P h e) := by
  cases e with
  | setVram a v =>
    rw [hostAction]
    split
    next ha => exact { hs with vram := hs.vram.write ha v }
    next => exact hs
  | _ => exact { hs with }

/-! ### The whole invariant -/

theorem exec_keeps_inv (hpos : 0 < s.params.vramSize) (hs : DeviceInv s) (he : exec i s = .next t) : DeviceInv t := by
  obtain ⟨hrev, hdet, hap, hout, hdepth, hstore⟩ := hs
  have hdepth' := exec_keeps_depthInv he hdepth
  have hstore' : storageInv s.params t.host := by
    rw [exec_host he]
    exact storageInv_iff.2 (HostEffect.apply_storesOk (storageInv_iff.1 hstore) fun a v => hostEffect_vramWrite_lt hpos)
  have hst := exec_st he
  rw [DeviceInv, exec_params he]
  refine ⟨?_, ?_, ?_, ?_, hdepth', hstore'⟩ <;> rw [hst]
  exacts [chipAfter_revisionInv hrev, chipAfter_detectorInv hdet, chipAfter_apertureInv hap, chipAfter_outputFlagsInv hout]

/-- An action of the host's leaves the chip state and keeps the stores. -/
theorem hostAction_keeps_inv (hs : DeviceInv s) (e : HostEvent) (rest : List HostEvent) :
    DeviceInv { s with host := hostAction s.params s.host e, pending := rest } := by
  obtain ⟨hrev, hdet, hap, hout, hdepth, hstore⟩ := hs
  exact ⟨hrev, hdet, hap, hout, hdepth, storageInv_iff.2 (hostAction_storesOk (storageInv_iff.1 hstore))⟩

/-- Settles O49: a step does nothing, runs one operation or takes one action of the host's, and each keeps the invariant. -/
theorem stepKeepsInv : Obligations.StepKeepsInv := by
  intro s t hs h
  obtain ⟨hl, rfl | ⟨i, r, rest, he⟩ | ⟨e, rest, rfl⟩⟩ := step_next h
  · exact ⟨hs, rfl⟩
  · exact ⟨exec_keeps_inv (s := s.begin r rest) (vramSize_pos hl) hs he, exec_params (s := s.begin r rest) he⟩
  · exact ⟨hostAction_keeps_inv hs e rest, rfl⟩

end Sys2Proof.Machine
end

section
/-! Decode and encode (30_encoding.md R70 to R78): the class of a port, the operation of a port access, and what a key's fields bring to it. -/

namespace Sys2Proof.Machine

variable {P : Params} {misc : Byte} {p : Port} {w : Bool} {i v : Byte} {j : Instr} {k : Key}

/-! ### The class of a port (R74) -/

/-- The port, or the ports, that a class stands for. -/
def portNamed (P : Params) (misc : Byte) (p : Port) : PortClass → Prop
  | .seqData => p = P.pSeqData
  | .seqAliasData => some p = P.pSeqAliasData
  | .seqAliasIndex => some p = P.pSeqAliasIndex
  | .crtcData => p = crtcDataPort P misc
  | .bankW => p = bankWPort P misc
  | .bankR => p = bankRPort P misc
  | .gcData => p = P.pGcData
  | .dacCmd => p = P.pDacCmd
  | .dacRst r => p = dacResetPort P r
  | .pass => p ∉ claimedPorts P misc

/-- An unclaimed port is none of the ports of R56. -/
theorem not_mem_claimedPorts : p ∉ claimedPorts P misc ↔
    (p ≠ P.pSeqData ∧ p ≠ P.pGcData ∧ p ≠ P.pDacCmd ∧ p ≠ P.pDacRst0 ∧ p ≠ P.pDacRst1 ∧ p ≠ P.pDacRst2 ∧
      p ≠ crtcDataPort P misc ∧ p ≠ bankWPort P misc ∧ p ≠ bankRPort P misc) ∧
    some p ≠ P.pSeqAliasIndex ∧ some p ≠ P.pSeqAliasData := by
  simp only [claimedPorts, List.mem_append, List.mem_cons, Option.mem_toList, List.not_mem_nil, or_false, not_or, and_assoc,
    eq_comm (b := some p), ne_eq]

/-- A port is one of its class: each test of R74 names it, and the last class is left with the unclaimed ports. -/
theorem portNamed_portClass (P : Params) (misc : Byte) (p : Port) : portNamed P misc p (portClass P misc p) := by
  have next {c : Prop} [Decidable c] {a b : PortClass} (ha : c → portNamed P misc p a) (hb : ¬ c → portNamed P misc p b) :
      portNamed P misc p (if c then a else b) := iteInduction ha hb
  refine next id fun hseq => next id fun hdata => next id fun hidx => next id fun hcrtc => next id fun hbankW =>
    next id fun hbankR => next id fun hgc => next id fun hcmd => next id fun hrst0 => next id fun hrst1 =>
    next id fun hrst2 => ?_
  exact not_mem_claimedPorts.2 ⟨⟨hseq, hgc, hcmd, hrst0, hrst1, hrst2, hcrtc, hbankW, hbankR⟩, hidx, hdata⟩

/-- Under a legal parameter set a port has the class it is named by: no two claimed ports are equal, so it fails every test before its own. -/
theorem portClass_of_named (h : paramsLegal P = true) {cls : PortClass} (hp : portNamed P misc p cls) :
    portClass P misc p = cls := by
  have hn := claimedPorts_nodup h misc
  simp only [claimedPorts, List.cons_append, List.nil_append, List.nodup_cons, List.mem_cons,
    List.mem_append, Option.mem_toList, not_or] at hn
  cases cls with
  | seqData => exact hp ▸ portClass_seqData
  | seqAliasData => exact portClass_seqAliasData h hp
  | crtcData => exact hp ▸ portClass_crtcData h
  | gcData => exact hp ▸ portClass_gcData h
  | bankW => exact hp ▸ portClass_bankW h
  | seqAliasIndex | bankR | dacCmd =>
    simp only [portNamed] at hp
    grind [portClass]
  | dacRst r =>
    cases r <;> simp only [portNamed, dacResetPort] at hp <;> grind [portClass]
  | pass =>
    obtain ⟨⟨hseq, hgc, hcmd, hrst0, hrst1, hrst2, hcrtc, hbankW, hbankR⟩, hidx, hdata⟩ := not_mem_claimedPorts.1 hp
    simp only [portClass, hseq, hgc, hcmd, hrst0, hrst1, hrst2, hcrtc, hbankW, hbankR, hidx, hdata, if_false]

/-! ### The key of a port access, by the class of its port -/

/-- The operation of an access to a port of a class: the second half of `portOp`. -/
def classOp (P : Params) (w : Bool) (p : Port) (i v : Byte) : PortClass → Instr
  | .seqData => seqOp P w i v
  | .seqAliasData => if w then .seqaDataW i v else .seqaDataR i
  | .seqAliasIndex => if w then .seqaIdxW v else .seqaIdxR
  | .crtcData => crtcOp P w i v
  | .bankW => if w then .bankwW v else .bankwR
  | .bankR => if w then .bankrW v else .bankrR
  | .gcData => gcOp P w i v
  | .dacCmd => if w then .dacCmdW v else .dacCmdR
  | .dacRst r => if w then .dacRstW r v else .dacRstR r
  | .pass => if w then .passW p v else .passR p

theorem portOp_eq_classOp (P : Params) (misc : Byte) (w : Bool) (p : Port) (i v : Byte) :
    portOp P misc w p i v = classOp P w p i v (portClass P misc p) := by
  rw [portOp]
  cases portClass P misc p <;> rfl

/-- Under a legal parameter set a port access's key decodes to the operation of the class that names its port. -/
theorem decodeKey_of_named (h : paramsLegal P = true) {cls : PortClass} (hp : portNamed P misc p cls) (w : Bool) :
    decodeKey P misc (mkKey (if w then 1 else 0) 0 (ioAddr p) i v) = .op (classOp P w p i v cls) := by
  rw [decodeKey_ioKey, portOp_eq_classOp, portClass_of_named h hp]

/-! ### Every well-formed operation's key decodes to it (R76) -/

theorem decodeKey_ioReadKey (P : Params) (misc : Byte) (p : Port) (i : Byte) :
    decodeKey P misc (ioReadKey p i) = .op (portOp P misc false p i 0) :=
  decodeKey_ioKey P misc false p i 0

theorem decodeKey_ioWriteKey (P : Params) (misc : Byte) (p : Port) (i v : Byte) :
    decodeKey P misc (ioWriteKey p i v) = .op (portOp P misc true p i v) :=
  decodeKey_ioKey P misc true p i v

/-- A parameter that is set is what its encoding's default leaves it. -/
theorem some_getD {o : Option Port} (h : o.isSome = true) (d : Port) : some (o.getD d) = o := by
  rw [← Option.get_eq_getD (h := h), Option.some_get]

/-- Settles O1: the key's port has the class the operation belongs to, and at a group data port its index passes the operation's own test
of the group's dispatch. -/
theorem decodeInvertsEncode : Obligations.DecodeInvertsEncode := by
  intro P misc j hl hwf
  cases j with
  | seqUnkR i => exact decodeKey_seqData_unknown hl (of_decide_eq_true hwf) false
  | seqUnkW i v => exact decodeKey_seqData_unknown hl (of_decide_eq_true hwf) true
  | crUnkR i => exact decodeKey_crtcData_unknown hl (of_decide_eq_true hwf) false
  | crUnkW i v => exact decodeKey_crtcData_unknown hl (of_decide_eq_true hwf) true
  | gcUnkR i => exact decodeKey_gcData_unknown hl (of_decide_eq_true hwf) false
  | gcUnkW i v => exact decodeKey_gcData_unknown hl (of_decide_eq_true hwf) true
  | seqStdR i | seqStdW i v =>
    have hi : i ≤ P.seqStdMax := of_decide_eq_true hwf
    simp [encodeKey, decodeKey_ioReadKey, decodeKey_ioWriteKey, portOp, portClass_seqData, seqOp_of_index hl, hi]
  | crStdR i | crStdW i v =>
    have hi : i ≤ P.crtcStdMax := of_decide_eq_true hwf
    simp [encodeKey, decodeKey_ioReadKey, decodeKey_ioWriteKey, portOp, portClass_crtcData hl, crtcOp_of_index hl, hi]
  | gcStdR i | gcStdW i v =>
    have hi : i ≤ P.gcStdMax := of_decide_eq_true hwf
    simp [encodeKey, decodeKey_ioReadKey, decodeKey_ioWriteKey, portOp, portClass_gcData hl, gcOp_of_index hl, hi]
  | crFinalR | crFinalW v =>
    obtain ⟨f, hf⟩ := Option.isSome_iff_exists.1 hwf
    simp [encodeKey, decodeKey_ioReadKey, decodeKey_ioWriteKey, portOp, portClass_crtcData hl, crtcOp_of_index hl, hf]
  | seqUnlockR | seqUnlockW v | seqPum1R | seqPum1W v | seqMc2R | seqMc2W v | seqMc1R | seqMc1W v | seqPum2R | seqPum2W v =>
    simp [encodeKey, decodeKey_ioReadKey, decodeKey_ioWriteKey, portOp, portClass_seqData, seqOp_of_index hl]
  | crModtestR | crModtestW v | crSwprogR | crSwprogW v | crLinapR | crLinapW v | crStarthiR | crStarthiW v
  | crOffextR | crOffextW v | crPixdepthR | crPixdepthW v | crMmioR | crMmioW v =>
    simp [encodeKey, decodeKey_ioReadKey, decodeKey_ioWriteKey, portOp, portClass_crtcData hl, crtcOp_of_index hl]
  | gcExtaR | gcExtaW v | gcExtbR | gcExtbW v | gcMiscR | gcMiscW v =>
    simp [encodeKey, decodeKey_ioReadKey, decodeKey_ioWriteKey, portOp, portClass_gcData hl, gcOp_of_index hl]
  | passR p => exact decodeKey_of_named (cls := .pass) hl (of_decide_eq_true (p := p ∉ claimedPorts P misc) hwf) false
  | passW p v => exact decodeKey_of_named (cls := .pass) hl (of_decide_eq_true (p := p ∉ claimedPorts P misc) hwf) true
  | bankwR => exact decodeKey_of_named (cls := .bankW) hl rfl false
  | bankwW v => exact decodeKey_of_named (cls := .bankW) hl rfl true
  | bankrR => exact decodeKey_of_named (cls := .bankR) hl rfl false
  | bankrW v => exact decodeKey_of_named (cls := .bankR) hl rfl true
  | dacCmdR => exact decodeKey_of_named (cls := .dacCmd) hl rfl false
  | dacCmdW v => exact decodeKey_of_named (cls := .dacCmd) hl rfl true
  | dacRstR r => exact decodeKey_of_named (cls := .dacRst r) hl rfl false
  | dacRstW r v => exact decodeKey_of_named (cls := .dacRst r) hl rfl true
  | seqaIdxR => exact decodeKey_of_named (cls := .seqAliasIndex) hl (some_getD hwf 0) false
  | seqaIdxW v => exact decodeKey_of_named (cls := .seqAliasIndex) hl (some_getD hwf 0) true
  | seqaDataR i => exact decodeKey_of_named (cls := .seqAliasData) hl (some_getD hwf 0) false
  | seqaDataW i v => exact decodeKey_of_named (cls := .seqAliasData) hl (some_getD hwf 0) true
  | fbR o | fbW o v | reset => simp [encodeKey, decodeKey]

end Sys2Proof.Machine
end

section
/-! Whatever a key decodes to (30_encoding.md R74 to R77): it meets its rule's operand conditions, and its own key has the fields of the key
read; the keys that decode to nothing are the reserved ones. -/

namespace Sys2Proof.Machine

variable {P : Params} {misc misc' : Byte} {p : Port} {w : Bool} {i v : Byte} {j : Instr} {k : Key}

/-! ### The operation of a port access and its own key -/

/-- The key of a port access: of a write with the data byte, of a read without. -/
def ioKey (w : Bool) (p : Port) (i v : Byte) : Key := if w then ioWriteKey p i v else ioReadKey p i

/-- Operation `j` meets its operand conditions, and its key is that of the access at port `p` with index byte `i`. -/
structure SpelledBy (P : Params) (misc : Byte) (w : Bool) (p : Port) (i v : Byte) (j : Instr) : Prop where
  wf : j.wf P misc = true
  key : encodeKey P misc j = ioKey w p i v

/-- One test of a dispatch, for a property of the operation chosen. -/
theorem spelledBy_test {c : Prop} [Decidable c] {i' : Byte} {a b : Instr} (ha : c → SpelledBy P misc w p i' v a)
    (hb : ¬ c → SpelledBy P misc w p i' v b) : SpelledBy P misc w p i' v (if c then a else b) :=
  iteInduction ha hb

/-- The choice between write and read. -/
theorem spelledBy_direction {i' : Byte} {a b : Instr} (ha : SpelledBy P misc true p i' v a)
    (hb : SpelledBy P misc false p i' v b) : SpelledBy P misc w p i' v (if w then a else b) := by
  cases w <;> assumption

theorem crtcOp_spelledBy : SpelledBy P misc w (crtcDataPort P misc) i v (crtcOp P w i v) := by
  refine spelledBy_test ?std fun hstd => spelledBy_test ?_ fun h1 => spelledBy_test ?_ fun h2 => spelledBy_test ?_ fun h3 =>
    spelledBy_test ?_ fun h4 => spelledBy_test ?_ fun h5 => spelledBy_test ?_ fun h6 => spelledBy_test ?_ fun h7 =>
    spelledBy_test ?final fun hf => ?unk
  case std => exact fun h => spelledBy_direction ⟨decide_eq_true h, rfl⟩ ⟨decide_eq_true h, rfl⟩
  case final =>
    intro h
    refine spelledBy_direction ⟨?_, ?_⟩ ⟨?_, ?_⟩ <;> simp [Instr.wf, encodeKey, ioKey, ← h]
  case unk =>
    have hu : unknownIndex P.crtcStdMax (crtcNamed P) i :=
      ⟨BitVec.not_le.1 hstd, by simp [crtcNamed, h1, h2, h3, h4, h5, h6, h7, Ne.symm hf]⟩
    exact spelledBy_direction ⟨decide_eq_true hu, rfl⟩ ⟨decide_eq_true hu, rfl⟩
  all_goals
    rintro rfl
    exact spelledBy_direction ⟨rfl, rfl⟩ ⟨rfl, rfl⟩

theorem gcOp_spelledBy : SpelledBy P misc w P.pGcData i v (gcOp P w i v) := by
  refine spelledBy_test ?std fun hstd => spelledBy_test ?_ fun h1 => spelledBy_test ?_ fun h2 => spelledBy_test ?_ fun h3 => ?unk
  case std => exact fun h => spelledBy_direction ⟨decide_eq_true h, rfl⟩ ⟨decide_eq_true h, rfl⟩
  case unk =>
    have hu : unknownIndex P.gcStdMax (gcNamed P) i := ⟨BitVec.not_le.1 hstd, by simp [gcNamed, h1, h2, h3]⟩
    exact spelledBy_direction ⟨decide_eq_true hu, rfl⟩ ⟨decide_eq_true hu, rfl⟩
  all_goals
    rintro rfl
    exact spelledBy_direction ⟨rfl, rfl⟩ ⟨rfl, rfl⟩

/-- The operation of an access to a sequencer register: the second half of `seqOp`. -/
def seqRegOp (w : Bool) (i v : Byte) : SeqReg → Instr
  | .std => if w then .seqStdW i v else .seqStdR i
  | .unlock => if w then .seqUnlockW v else .seqUnlockR
  | .pum1 => if w then .seqPum1W v else .seqPum1R
  | .mc2 => if w then .seqMc2W v else .seqMc2R
  | .mc1 => if w then .seqMc1W v else .seqMc1R
  | .pum2 => if w then .seqPum2W v else .seqPum2R
  | .unk => if w then .seqUnkW i v else .seqUnkR i

theorem seqOp_eq_seqRegOp (P : Params) (w : Bool) (i v : Byte) : seqOp P w i v = seqRegOp w i v (seqReg P i) := by
  rw [seqOp]
  cases seqReg P i <;> rfl

theorem seqOp_spelledBy : SpelledBy P misc w P.pSeqData i v (seqOp P w i v) := by
  simp only [seqOp_eq_seqRegOp, seqReg, apply_ite (seqRegOp w i v)]
  refine spelledBy_test ?std fun hstd => spelledBy_test ?_ fun h1 => spelledBy_test ?_ fun h2 => spelledBy_test ?_ fun h3 =>
    spelledBy_test ?_ fun h4 => spelledBy_test ?_ fun h5 => ?unk
  case std => exact fun h => spelledBy_direction ⟨decide_eq_true h, rfl⟩ ⟨decide_eq_true h, rfl⟩
  case unk =>
    have hu : unknownIndex P.seqStdMax (seqNamed P) i :=
      ⟨BitVec.not_le.1 hstd, by simp [seqNamed, h1, h2, h3, h4, h5]⟩
    exact spelledBy_direction ⟨decide_eq_true hu, rfl⟩ ⟨decide_eq_true hu, rfl⟩
  all_goals
    rintro rfl
    exact spelledBy_direction ⟨rfl, rfl⟩ ⟨rfl, rfl⟩

/-- The classes of the group data ports, whose accesses carry an index byte (R72). -/
def hasIndex : PortClass → Bool
  | .seqData | .seqAliasData | .crtcData | .gcData => true
  | .seqAliasIndex | .bankW | .bankR | .dacCmd | .dacRst _ | .pass => false

/-- A port access decodes to a well-formed operation whose own key is that of the access, without the index byte where the port has none. -/
theorem portOp_spelledBy (P : Params) (misc : Byte) (w : Bool) (p : Port) (i v : Byte) :
    SpelledBy P misc w p (if hasIndex (portClass P misc p) then i else 0) v (portOp P misc w p i v) := by
  rw [portOp_eq_classOp]
  have hp := portNamed_portClass P misc p
  cases hcls : portClass P misc p <;> rw [hcls] at hp
  case seqData => exact hp ▸ seqOp_spelledBy
  case crtcData => exact hp ▸ crtcOp_spelledBy
  case gcData => exact hp ▸ gcOp_spelledBy
  case seqAliasData =>
    have ha : P.pSeqAliasData = some p := Eq.symm hp
    refine spelledBy_direction ⟨?_, ?_⟩ ⟨?_, ?_⟩ <;> simp [Instr.wf, encodeKey, ioKey, hasIndex, ha]
  case seqAliasIndex =>
    have ha : P.pSeqAliasIndex = some p := Eq.symm hp
    refine spelledBy_direction ⟨?_, ?_⟩ ⟨?_, ?_⟩ <;> simp [Instr.wf, encodeKey, ioKey, hasIndex, ha]
  case pass => exact spelledBy_direction ⟨decide_eq_true hp, rfl⟩ ⟨decide_eq_true hp, rfl⟩
  all_goals
    obtain rfl := hp
    exact spelledBy_direction ⟨rfl, rfl⟩ ⟨rfl, rfl⟩

/-! ### The keys that decode to an operation -/

/-- What a key that decodes to an operation is: a reset key, a window key, or the key of a port access. -/
inductive DecodesTo (P : Params) (misc : Byte) (k : Key) : Instr → Prop where
  | reset (hk : keyKind k = 4) : DecodesTo P misc k .reset
  | fbR (hk : keyKind k = 2) : DecodesTo P misc k (.fbR (keyAddr k))
  | fbW (hk : keyKind k = 3) : DecodesTo P misc k (.fbW (keyAddr k) (keyData k))
  | port (w : Bool) (hk : keyKind k = if w then 1 else 0) (hio : keyIoBit k = false) :
      DecodesTo P misc k (portOp P misc w (keyPort k) (keyIdx k) (keyData k))

theorem decodesTo_of_decodeKey (h : decodeKey P misc k = .op j) : DecodesTo P misc k j := by
  rw [decodeKey] at h
  split_ifs at h with hz h5 h4 h2 h3 hio <;> cases h
  · exact .reset h4
  · exact .fbR h2
  · exact .fbW h3
  · refine .port _ ?_ (Bool.eq_false_of_not_eq_true hio)
    have kinds : ∀ kind : BitVec 3, ¬ 5 ≤ kind → kind ≠ 4 → kind ≠ 2 → kind ≠ 3 → kind = if kind = 1 then 1 else 0 := by
      decide
    simpa using kinds _ h5 h4 h2 h3

/-- Settles O2: a port access decodes to a well-formed operation, and the other operations have no operand conditions. -/
theorem decodedOperationIsWellFormed : Obligations.DecodedOperationIsWellFormed := by
  intro P misc k j h
  cases decodesTo_of_decodeKey h with
  | reset | fbR | fbW => rfl
  | port w => exact (portOp_spelledBy P misc w _ _ _).wf

/-! ### The fields of the decoded operation's key -/

/-- With bit 32 clear the address field is the port (R70). -/
theorem ioAddr_keyPort (h : keyIoBit k = false) : ioAddr (keyPort k) = keyAddr k := by
  refine BitVec.eq_of_getLsbD_eq fun n hn => ?_
  rw [keyIoBit] at h
  rw [ioAddr, keyPort, keyAddr, BitVec.getLsbD_append, BitVec.getLsbD_extractLsb', BitVec.getLsbD_extractLsb']
  by_cases h16 : n < 16
  · simp [h16, hn]
  · obtain rfl : n = 16 := by omega
    simpa using h

theorem keyKind_ioKey : keyKind (ioKey w p i v) = if w then 1 else 0 := by
  cases w <;> simp [ioKey, ioReadKey, ioWriteKey]

theorem keyAddr_ioKey : keyAddr (ioKey w p i v) = ioAddr p := by
  cases w <;> simp [ioKey, ioReadKey, ioWriteKey]

theorem keyIdx_ioKey : keyIdx (ioKey w p i v) = i := by
  cases w <;> simp [ioKey, ioReadKey, ioWriteKey]

theorem keyData_ioWriteKey : keyData (ioKey true p i v) = v := by
  simp [ioKey, ioWriteKey]

/-- The group data ports of R72 are the ports whose class has an index byte. -/
theorem hasIndex_of_groupPort (h : p = P.pSeqData ∨ some p = P.pSeqAliasData ∨ portClass P misc p = .crtcData ∨
    portClass P misc p = .gcData) : hasIndex (portClass P misc p) = true := by
  rcases h with rfl | ha | hc | hg
  · rw [portClass_seqData]; rfl
  · by_cases hs : p = P.pSeqData
    · rw [hs, portClass_seqData]; rfl
    · rw [portClass, if_neg hs, if_pos ha]; rfl
  · rw [hc]; rfl
  · rw [hg]; rfl

/-- Settles O3: the key of a window operation is written from the key's fields, and that of a port access is the access's own. -/
theorem encodeRecoversTheKey : Obligations.EncodeRecoversTheKey := by
  intro P misc k j h hr
  cases decodesTo_of_decodeKey h with
  | reset => exact absurd rfl hr
  | fbR hk => simp [encodeKey, hk]
  | fbW hk => simp [encodeKey, hk]
  | port w hk hio =>
    rw [(portOp_spelledBy P misc w (keyPort k) (keyIdx k) (keyData k)).key]
    refine ⟨keyKind_ioKey.trans hk.symm, keyAddr_ioKey.trans (ioAddr_keyPort hio), fun hwrite => ?data, fun _ hgroup => ?idx⟩
    case data =>
      cases w with
      | true => exact keyData_ioWriteKey
      | false => simp [hk] at hwrite
    case idx => rw [keyIdx_ioKey, if_pos (hasIndex_of_groupPort hgroup)]

end Sys2Proof.Machine
end

section
/-! Keys and the misc-output byte (30_encoding.md R77, R78), the spec's sample keys, and a key placed as the next transaction (R72; log 13). -/

namespace Sys2Proof.Machine

variable {P : Params} {misc misc' : Byte} {p : Port} {w : Bool} {i i' v : Byte} {j : Instr} {k : Key} {s : State} {h : HostSide}

/-! ### The reserved keys (R77) -/

/-- A kind that is none of the others is that of a port read or a port write. -/
theorem portKind_of_not_other {kind : BitVec 3} (h5 : ¬ 5 ≤ kind) (h4 : kind ≠ 4) (h2 : kind ≠ 2) (h3 : kind ≠ 3) :
    kind = 0 ∨ kind = 1 := by
  revert kind
  decide

theorem decodeKey_reserved_iff :
    (∃ why, decodeKey P misc k = .reserved why) ↔
      keyZero k ≠ 0 ∨ 5 ≤ keyKind k ∨ ((keyKind k = 0 ∨ keyKind k = 1) ∧ keyIoBit k = true) := by
  constructor
  case mp =>
    rintro ⟨why, h⟩
    rw [decodeKey] at h
    split_ifs at h with hz h5 h4 h2 h3 hio <;> cases h
    · exact .inl hz
    · exact .inr (.inl h5)
    · exact .inr (.inr ⟨portKind_of_not_other h5 h4 h2 h3, hio⟩)
  case mpr =>
    intro h
    by_cases hz : keyZero k ≠ 0
    · exact ⟨_, if_pos hz⟩
    rcases h.resolve_left hz with h5 | ⟨h01, hio⟩
    · exact ⟨_, (if_neg hz).trans (if_pos h5)⟩
    · refine ⟨.ioAddressBit, ?_⟩
      rw [decodeKey, if_neg hz]
      rcases h01 with hk | hk <;> simp [hk, hio]

theorem keyKind_toNat (k : Key) : (keyKind k).toNat = k.toNat / 2 ^ 37 := by
  rw [keyKind, BitVec.extractLsb'_toNat, Nat.shiftRight_eq_div_pow]
  have := k.isLt
  omega

theorem keyZero_toNat (k : Key) : (keyZero k).toNat = k.toNat / 2 ^ 33 % 16 := by
  rw [keyZero, BitVec.extractLsb'_toNat, Nat.shiftRight_eq_div_pow]

theorem keyIoBit_eq_true_iff (k : Key) : keyIoBit k = true ↔ k.toNat / 2 ^ 32 % 2 = 1 := by
  rw [keyIoBit, BitVec.getLsbD, Nat.testBit_eq_decide_div_mod_eq, decide_eq_true_eq]

/-- Settles O4: the decoder's three refusals, each field read as a number. -/
theorem reservedKeysExactly : Obligations.ReservedKeysExactly := by
  intro P misc k
  have hkind : 5 ≤ keyKind k ↔ 5 ≤ k.toNat / 2 ^ 37 := by rw [BitVec.le_def, keyKind_toNat]; rfl
  have hzero : keyZero k ≠ 0 ↔ k.toNat / 2 ^ 33 % 16 ≠ 0 := by
    rw [ne_eq, ← BitVec.toNat_inj, keyZero_toNat]; rfl
  have hport : (keyKind k = 0 ∨ keyKind k = 1) ↔ k.toNat / 2 ^ 37 < 2 := by
    rw [← BitVec.toNat_inj, ← BitVec.toNat_inj, keyKind_toNat]
    show k.toNat / 2 ^ 37 = 0 ∨ k.toNat / 2 ^ 37 = 1 ↔ _
    omega
  rw [decodeKey_reserved_iff, hkind, hzero, hport, keyIoBit_eq_true_iff]
  exact or_left_comm

/-! ### The misc-output byte (R78, R91) -/

/-- Decode asks the misc-output byte for the active CRTC base alone. -/
theorem decodeKey_congr_crtcBase (hb : crtcBase P misc = crtcBase P misc') (k : Key) :
    decodeKey P misc k = decodeKey P misc' k := by
  have hcrtc : crtcDataPort P misc = crtcDataPort P misc' := by rw [crtcDataPort, hb, crtcDataPort]
  have hbankW : bankWPort P misc = bankWPort P misc' := by rw [bankWPort, hb, bankWPort]
  have hbankR : bankRPort P misc = bankRPort P misc' := by rw [bankRPort, hb, bankRPort]
  have hclass (p : Port) : portClass P misc p = portClass P misc' p := by
    rw [portClass, hcrtc, hbankW, hbankR, portClass]
  simp only [decodeKey, portOp, hclass]

/-- Settles O7: the base depends on the base-select bit alone. -/
theorem onlyTheBaseBitMovesDecode : Obligations.OnlyTheBaseBitMovesDecode := by
  intro P m m' k hbit
  refine decodeKey_congr_crtcBase ?_ k
  rw [crtcBase, crtcBase, bit, bit, hbit]

/-- Settles O8: each key is one evaluation of the decoder. -/
theorem sampleKeysDecode : Obligations.SampleKeysDecode := by
  refine ⟨?_, ?_, ?_, ?_, ?_, ?_, ?_, ?_, ?_, ?_, ?_, ?_, ?_, ?_⟩ <;> decide

/-! ### A key placed as the next transaction (log 13) -/

theorem keyPort_eq (k : Key) : keyPort k = (keyAddr k).extractLsb' 0 16 := by
  refine BitVec.eq_of_getLsbD_eq fun n hn => ?_
  simp only [keyPort, keyAddr, BitVec.getLsbD_extractLsb', hn, decide_true, Bool.true_and, Nat.zero_add]
  rw [decide_eq_true (by omega), Bool.true_and]

theorem keyIoBit_eq (k : Key) : keyIoBit k = (keyAddr k).getLsbD 16 := by
  rw [keyIoBit, keyAddr, BitVec.getLsbD_extractLsb']
  rfl

/-- The index byte is looked at only where the port's class has one (R72). -/
theorem portOp_congr_index (h : hasIndex (portClass P misc p) = true → i = i') :
    portOp P misc w p i v = portOp P misc w p i' v := by
  rw [portOp_eq_classOp, portOp_eq_classOp]
  cases hc : portClass P misc p <;> rw [hc] at h
  case seqData | seqAliasData | crtcData | gcData => rw [h rfl]
  all_goals rfl

/-- Two keys that agree but for the index byte decode alike, if they agree there too at a group data port. -/
theorem decodeKey_mkKey_index (h : (keyKind k = 0 ∨ keyKind k = 1) → hasIndex (portClass P misc (keyPort k)) = true → i = keyIdx k) :
    decodeKey P misc (mkKey (keyKind k) (keyZero k) (keyAddr k) i (keyData k)) = decodeKey P misc k := by
  simp only [decodeKey, keyZero_mkKey, keyKind_mkKey, keyAddr_mkKey, keyData_mkKey, keyIdx_mkKey, keyIoBit_eq, keyPort_eq]
  split_ifs with hz h5 h4 h2 h3 hio <;> try rfl
  rw [keyPort_eq] at h
  rw [portOp_congr_index (h (portKind_of_not_other h5 h4 h2 h3))]

theorem withIdx_misc (P : Params) (h : HostSide) (p : Port) (i : Byte) : (withIdx P h p i).misc = h.misc := by
  rw [withIdx]
  split <;> rfl

/-- Setting the group's index register gives a port access its index byte, where it has one. -/
theorem idxOf_withIdx (hp : hasIndex (portClass P h.misc p) = true) (i : Byte) : idxOf P (withIdx P h p i) p = i := by
  rw [idxOf, withIdx_misc, withIdx]
  cases hc : portClass P h.misc p with
  | seqData | seqAliasData | crtcData | gcData => rfl
  | _ => rw [hc] at hp; cases hp

theorem withIdx_indexes (P : Params) (h : HostSide) (p : Port) (i : Byte) :
    ∃ a b c, withIdx P h p i = { h with seqIndex := a, crtcIndex := b, gcIndex := c } := by
  rw [withIdx]
  split
  all_goals exact ⟨_, _, _, rfl⟩

theorem isPortRequest_keyRequest (k : Key) :
    isPortRequest (keyRequest k) = true ↔ keyKind k = 0 ∨ keyKind k = 1 := by
  show (decide (keyKind k = 0) || decide (keyKind k = 1)) = true ↔ _
  rw [Bool.or_eq_true, decide_eq_true_eq, decide_eq_true_eq]

theorem withNextKey_host_of_port (hk : keyKind k = 0 ∨ keyKind k = 1) :
    (s.withNextKey k).host = withIdx s.params s.host (keyPort k) (keyIdx k) :=
  if_pos ((isPortRequest_keyRequest k).2 hk)

theorem withNextKey_host_of_not_port (hk : ¬ (keyKind k = 0 ∨ keyKind k = 1)) : (s.withNextKey k).host = s.host :=
  if_neg (mt (isPortRequest_keyRequest k).1 hk)

theorem withNextKey_misc (s : State) (k : Key) : (s.withNextKey k).host.misc = s.host.misc := by
  by_cases hk : keyKind k = 0 ∨ keyKind k = 1
  · rw [withNextKey_host_of_port hk, withIdx_misc]
  · rw [withNextKey_host_of_not_port hk]

/-- The key put together from the placed request decodes as the key placed, though its idx byte may differ where none is looked at. -/
theorem decodeKey_placed (s : State) (k : Key) :
    decodeKey s.params (s.withNextKey k).host.misc (requestKey s.params (s.withNextKey k).host (keyRequest k)) =
      decodeKey s.params s.host.misc k := by
  rw [withNextKey_misc]
  refine decodeKey_mkKey_index fun hk hidx => ?_
  have hport : requestPort (keyRequest k) = keyPort k := (keyPort_eq k).symm
  rw [if_pos ((isPortRequest_keyRequest k).2 hk), hport, withNextKey_host_of_port hk]
  exact idxOf_withIdx hidx _

/-- Settles O10: the step decodes the placed key's request to the key's operation and runs it; placing set an index register at most. -/
theorem placedKeyIsRunNext : Obligations.PlacedKeyIsRunNext := by
  intro s k i hl hd
  refine ⟨step_of_op (s := s.withNextKey k) hl rfl ((decodeKey_placed s k).trans hd), ?_⟩
  by_cases hk : keyKind k = 0 ∨ keyKind k = 1
  · rw [withNextKey_host_of_port hk]
    exact withIdx_indexes ..
  · exact ⟨_, _, _, withNextKey_host_of_not_port hk⟩

end Sys2Proof.Machine
end

section
/-! Accesses the host answers (40_dispatch.md R92 to R110): unclaimed ports, standard registers, the sequencer's aliased ports, and what leaves the
chip state alone (10_state.md R21). -/

namespace Sys2Proof.Machine

variable {s t : State} {i v : Byte} {p : Port}

/-! ### The host's handlers -/

/-- Without an answer of the host's the stand-in's byte is taken (log 6). -/
theorem hostByte_of_none {b : Byte} (h : s.answer = none) : s.hostByte b = b := by
  rw [State.hostByte, h, Option.getD_none]

/-- A byte written is read back at its address, and every other address reads as before. -/
theorem wroteByte_write (m : Memory) (a : Nat) (v : Byte) : wroteByte m (m.write a v) a v :=
  ⟨fun _ hb => Memory.read_write_other m hb v, fun h => Memory.read_write_same h a v⟩

/-! ### Steps and window accesses that leave the chip alone (R21) -/

theorem exec_fbR_next {o : Offset} (he : exec (.fbR o) s = .next t) : t.st = s.st ∧ t.host = s.host ∧ t.tlog = s.tlog := by
  rcases next_of_ite he with ⟨-, rfl⟩ | ⟨-, rfl⟩ <;> exact ⟨rfl, rfl, rfl⟩

theorem exec_fbW_next {o : Offset} (he : exec (.fbW o v) s = .next t) :
    t.st = s.st ∧ t.tlog = s.tlog ∧ t.host = { s.host with vram := t.host.vram, genMem := t.host.genMem } := by
  rcases next_of_ite he with ⟨-, rfl⟩ | ⟨-, rfl⟩ <;> exact ⟨rfl, rfl, rfl⟩

/-- Settles O12: the step's equations for an empty list and for an action of the host's, and the two window accesses. -/
theorem onlyTransactionsChangeTheChip : Obligations.OnlyTransactionsChangeTheChip := by
  refine ⟨fun s hl hp => step_of_idle hl hp, fun s t e rest hp he h => ?action, fun s t o he => exec_fbR_next he,
    fun s t o v he => exec_fbW_next he⟩
  case action =>
    obtain ⟨hl, -⟩ := step_next h
    rw [step_of_action hl hp he] at h
    cases h
    exact ⟨rfl, rfl, rfl, rfl, rfl⟩

/-! ### Unclaimed ports (R92, R93) -/

/-- Settles O13: the port's class is the unclaimed one, and the host's side is the stand-in's three tests. -/
theorem unclaimedPortWrite : Obligations.UnclaimedPortWrite := by
  intro s p v
  refine ⟨fun hp hl => decodeKey_of_named (cls := .pass) hl hp true, standInPortWrite s.params s.host p v, rfl,
    fun h1 => ?_, fun h1 h2 => ?_, fun h1 h2 h3 => ?_, fun h1 h2 h3 => ?_⟩ <;> rw [standInPortWrite]
  · rw [if_pos h1]
  · rw [if_neg h1, if_pos h2]
  · rw [if_neg h1, if_neg h2, if_pos h3]
  · rw [if_neg h1, if_neg h2, if_neg h3]

/-- Settles O14: the port's class is the unclaimed one, and the byte is the host's answer or the stand-in's, by its three tests. -/
theorem unclaimedPortRead : Obligations.UnclaimedPortRead := by
  intro s p
  refine ⟨fun hp hl => decodeKey_of_named (cls := .pass) hl hp false, s.hostByte (standInPort s.params s.host p), rfl,
    fun a ha => hostByte_of_answer ha, fun hn h1 => ?_, fun hn h1 h2 h3 => ?_, fun hn h1 h2 => ?_, fun hn h1 h2 h3 => ?_⟩ <;>
    rw [hostByte_of_none hn, standInPort]
  · rw [if_pos h1]
  · rw [if_neg h1, if_neg h2, if_pos h3]
  · rw [if_neg h1, if_pos h2]
  · rw [if_neg h1, if_neg h2, if_neg h3]

/-! ### Standard registers (R97, R98, R101, R102, R105, R106) -/

/-- Settles O15: each key passes the threshold test of its group, and each operation is one call of the host's standard handler. -/
theorem standardRegisterReads : Obligations.StandardRegisterReads := by
  intro s i
  refine ⟨fun hi => spells_seqRead fun hl => ?seq, fun hi => spells_crtcRead fun hl => ?crtc,
    fun hi => spells_gcRead fun hl => ?gc, s.hostByte (s.host.seqStd.read i.toNat), s.hostByte (s.host.crtcStd.read i.toNat),
    s.hostByte (s.host.gcStd.read i.toNat), rfl, rfl, rfl,
    fun x hx => ⟨hostByte_of_answer hx, hostByte_of_answer hx, hostByte_of_answer hx⟩⟩
  case seq => simp [seqOp_of_index hl, hi]
  case crtc => simp [crtcOp_of_index hl, hi]
  case gc => simp [gcOp_of_index hl, hi]

/-- Settles O16: each operation stores one byte in its group's file; the CRTC's then runs a decode pass, which reads nothing of the host's. -/
theorem standardRegisterWrites : Obligations.StandardRegisterWrites := by
  intro s i v
  exact ⟨⟨_, rfl, wroteByte_write ..⟩, ⟨_, rfl, wroteByte_write ..⟩, ⟨_, rfl, wroteByte_write ..⟩⟩

/-! ### The sequencer's aliased ports (R107 to R110) -/

/-- The aliased index port is the host's sequencer index port (R107, R108). -/
theorem exec_seqaIdxW (v : Byte) (s : State) :
    exec (.seqaIdxW v) s = .next { s with
      host := { s.host with seqIndex := v }, calls := s.calls ++ [.portWrite s.params.pSeqIndex v], result := none } := by
  have hw : standInPortWrite s.params s.host s.params.pSeqIndex v = { s.host with seqIndex := v } := if_pos rfl
  rw [← hw]
  rfl

/-- Settles O35: each aliased port has its own class; an access to the aliased index port is one to the host's own, and the aliased data port runs
what the data port's key spells, which answers a byte exactly where it is a read. -/
theorem sequencerAliasPorts : Obligations.SequencerAliasPorts := by
  intro s i v
  refine ⟨fun q hq => ⟨fun hl => ?_, fun hl => ?_⟩, fun q hq => ⟨fun hl => ?_, fun hl => ?_⟩,
    ⟨s.hostByte (standInPort s.params s.host s.params.pSeqIndex), rfl, fun a ha => hostByte_of_answer ha, fun hn => ?index⟩,
    exec_seqaIdxW v s, ?read, ?write⟩
  · exact decodeKey_of_named (cls := .seqAliasIndex) hl hq.symm false
  · exact decodeKey_of_named (cls := .seqAliasIndex) hl hq.symm true
  · exact decodeKey_of_named (cls := .seqAliasData) hl hq.symm false
  · exact decodeKey_of_named (cls := .seqAliasData) hl hq.symm true
  case index => rw [hostByte_of_none hn, standInPort, if_pos rfl]
  case read =>
    obtain ⟨t, ht⟩ := exec_completes (.seqaDataR i) s
    exact ⟨_, t, decodeKey_seqData false, exec_seqaDataR i 0 s, ht, exec_result_isSome ht⟩
  case write =>
    obtain ⟨t, ht⟩ := exec_completes (.seqaDataW i v) s
    have hnone : t.result.isNone = true := Option.isSome_eq_false_iff.1 (exec_result_isSome ht)
    exact ⟨_, t, decodeKey_seqData true, exec_seqaDataW i v s, ht, Option.isNone_iff_eq_none.1 hnone⟩

end Sys2Proof.Machine
end

section
/-! Writes of the register cells (41_seq_regs.md, 42_crtc_regs.md, 43_gc_regs.md), the aliased bank ports (45_bank_alias.md) and device reset: the
values they compute, as numbers or as bytes, and the exact next state. -/

namespace Sys2Proof.Machine

variable {P : Params} {c : Chip} {s t : State} {v : Byte}

/-! ### Writes with nothing to compute -/

/-- Settles O20: each write is one update of its own cell. -/
theorem storageOnlyWrites : Obligations.StorageOnlyWrites :=
  fun _ _ => ⟨rfl, rfl, rfl, rfl, rfl, rfl, rfl⟩

/-- Settles O22: both accesses are one update of the mode flag. -/
theorem unlockSelectsTheMode : Obligations.UnlockSelectsTheMode :=
  fun _ _ => ⟨rfl, rfl⟩

/-- Settles O23: each write is one update of its cell and its flag. -/
theorem powerUpAndMmioWrites : Obligations.PowerUpAndMmioWrites :=
  fun _ _ => ⟨rfl, rfl⟩

/-- Settles O28: the update of the cell, then one decode pass. -/
theorem pixelDepthWrite : Obligations.PixelDepthWrite :=
  fun _ _ => rfl

/-- Settles O24: the model's address is the sum of its two parts. -/
theorem linearApertureWrite : Obligations.LinearApertureWrite := by
  intro s v
  rw [← apertureAddr_eq]
  rfl

/-! ### Mode control 2 (R116, R177) -/

/-- The clock index as a number: two bits of the misc-output byte, then the two clock-select bits of the byte written. -/
theorem clockSelect_toNat (P : Params) (v misc : Byte) :
    (clockSelect P v misc).toNat = misc.toNat / 2 ^ P.miscCsLo.val % 4
      + 4 * (v.getLsbD P.mc2Cs2Bit.val).toNat + 8 * (v.getLsbD P.mc2Cs3Bit.val).toNat := by
  have parts : ∀ (high low : Bool) (f : BitVec 2),
      ((BitVec.ofBool high ++ BitVec.ofBool low) ++ f).toNat = f.toNat + 4 * low.toNat + 8 * high.toNat := by decide
  rw [clockSelect, parts, field2_toNat]
  rfl

/-- Settles O25: the mode chooses between the old cell and the new one with the latched index and a decode pass. -/
theorem modeControl2Write : Obligations.ModeControl2Write := by
  intro s v
  exact ⟨fun hm => if_neg (Bool.eq_false_iff.1 hm), fun hm => ⟨_, if_pos hm, clockSelect_toNat ..⟩⟩

/-! ### Banks (R25, R118, R161, R192 to R194) -/

theorem bankOf_toNat (v : Byte) : (bankOf v).toNat = v.toNat % 32 := by
  rw [bankOf, BitVec.extractLsb'_toNat, Nat.shiftRight_zero]

/-- A bank as a byte is the byte's low five bits. -/
theorem bankOf_zeroExtend (v : Byte) : (bankOf v).zeroExtend 8 = v &&& 0x1F := by
  refine BitVec.eq_of_toNat_eq ?_
  rw [BitVec.toNat_setWidth_of_le (by decide), bankOf_toNat, BitVec.toNat_and]
  exact (Nat.and_two_pow_sub_one_eq_mod v.toNat 5).symm

/-- Settles O26: the mode chooses the cell and the bank, and the bank write is the shared one. -/
theorem modeControl1Write : Obligations.ModeControl1Write := by
  intro s v follow
  have hexec : exec (.seqMc1W v) s = _ := execSeqMc1W_eq_ite v s
  refine ⟨fun hm => ⟨bankOf v, ?_, bankOf_zeroExtend v⟩, fun hm => ⟨bankOf v ^^^ 0x02, ?_, ?byte⟩⟩
  · rw [hexec, hm]
    rfl
  · rw [hexec, hm]
    rfl
  case byte =>
    rw [BitVec.zeroExtend, BitVec.setWidth_xor, ← BitVec.zeroExtend, bankOf_zeroExtend]
    rfl

/-- Settles O29: the separated bit decides whether the read bank gets the byte's low five bits. -/
theorem extensionAWrite : Obligations.ExtensionAWrite := by
  intro s v
  have hexec : exec (.gcExtaW v) s = .next { s with
      st := { s.st with gcExta := v, bankR := if separated s.params s.st then bankOf v else s.st.bankR }, result := none } := rfl
  refine ⟨fun hsep => ?_, fun hsep => ⟨bankOf v, ?_, bankOf_toNat v⟩⟩
  · rw [hexec, separated, bit, hsep]
    rfl
  · rw [hexec, separated, bit, hsep]
    rfl

/-- The write-bank port's write while enabled (R192). -/
theorem exec_bankwW_of_enabled (h : aliasEnabled s.params s.st = true) (v : Byte) :
    exec (.bankwW v) s = .next { s with
      st := { s.st with bankW := bankOf v, bankR := if separated s.params s.st then s.st.bankR else bankOf v }, result := none } :=
  if_pos h

/-- The read-bank port answers and takes its bank while both bits are set (R193, R194). -/
theorem exec_bankr_of_on (hen : aliasEnabled s.params s.st = true) (hsep : separated s.params s.st = true) (v : Byte) :
    exec .bankrR s = .next { s with result := some (s.st.bankR.zeroExtend 8) } ∧
    exec (.bankrW v) s = .next { s with st := { s.st with bankR := bankOf v }, result := none } := by
  have hon : (aliasEnabled s.params s.st && separated s.params s.st) = true := by rw [hen, hsep]; rfl
  refine ⟨?_, if_pos hon⟩
  show execBankrR s = _
  rw [execBankrR, hon]
  rfl

/-- The read-bank port is closed while either bit is clear (R193, R194). -/
theorem exec_bankr_of_off (h : aliasEnabled s.params s.st = false ∨ separated s.params s.st = false) (v : Byte) :
    exec .bankrR s = .next { s with result := some 0xFF } ∧ exec (.bankrW v) s = .next { s with result := none } := by
  have hoff : (aliasEnabled s.params s.st && separated s.params s.st) = false := by
    rcases h with h | h <;> simp [h]
  refine ⟨?_, if_neg (Bool.eq_false_iff.1 hoff)⟩
  show execBankrR s = _
  rw [execBankrR, hoff]
  rfl

/-- Settles O31: the two bits of extension register B open and close the two ports, and decide whether the read bank follows the write bank. -/
theorem bankPortAccesses : Obligations.BankPortAccesses := by
  intro s v en sep
  refine ⟨bankOf v, bankOf_toNat v, fun hen => exec_bankwW_of_disabled hen v, fun hen hsep => ?follows, fun hen hsep => ?stays,
    fun hen hsep => ⟨_, (exec_bankr_of_on hen hsep v).1, ?byte⟩, fun hoff => (exec_bankr_of_off hoff v).1,
    fun hen hsep => (exec_bankr_of_on hen hsep v).2, fun hoff => (exec_bankr_of_off hoff v).2⟩
  case follows =>
    have hsep : separated s.params s.st = false := hsep
    rw [exec_bankwW_of_enabled hen, hsep]
    rfl
  case stays =>
    have hsep : separated s.params s.st = true := hsep
    rw [exec_bankwW_of_enabled hen, hsep]
    rfl
  case byte => exact BitVec.toNat_setWidth_of_le (by decide)

/-! ### The start address (R136, R137) -/

/-- Settles O27: the two bits are a remainder below 256, so that the byte loses nothing of them. -/
theorem startAddressHighBits : Obligations.StartAddressHighBits := by
  intro s v
  refine ⟨⟨startAddrHigh s.host.startAddr, rfl, ?_⟩, rfl⟩
  rw [startAddrHigh, BitVec.toNat_ofNat, Nat.shiftRight_eq_div_pow]
  omega

/-! ### Device reset (R39, R250) -/

/-- Settles O40: the key is one evaluation of the decoder's kind test, and the operation leaves the reset chip state with the set's revision byte. -/
theorem deviceReset : Obligations.DeviceReset :=
  fun _ => ⟨fun _ => rfl, rfl⟩

/-- Settles O41: the reset chip state is written out field by field. -/
theorem resetChipValues : Obligations.ResetChipValues :=
  ⟨rfl, rfl, rfl, rfl, rfl, rfl, rfl, rfl, rfl, rfl, rfl⟩

end Sys2Proof.Machine
end

section
/-! The DAC ports one access at a time (47_dac.md R211 to R214): the keys, and the exact next state in each state of the detector. -/

namespace Sys2Proof.Machine

variable {s : State}

/-- The host's side after a port write touches no memory. -/
theorem standInPortWrite_memories (P : Params) (h : HostSide) (p : Port) (v : Byte) :
    let h' := standInPortWrite P h p v
    h'.vram = h.vram ∧ h'.genMem = h.genMem ∧ h'.seqStd = h.seqStd ∧ h'.crtcStd = h.crtcStd ∧ h'.gcStd = h.gcStd := by
  obtain ⟨-, -, hseq, hcrtc, hgc, hgen, hvram⟩ := standInPortWrite_frame P h p v
  exact ⟨hvram, hgen, hseq, hcrtc, hgc⟩

/-- Settles O32: the command port has its own class, and the detector's state chooses between the command byte and a counted call of the host. -/
theorem dacCommandRead : Obligations.DacCommandRead := by
  exact ⟨fun s => ⟨fun hl => decodeKey_of_named (cls := .dacCmd) hl rfl false, fun ha => exec_dacCmdR_of_active ha,
    fun ha => ⟨s.hostByte (standInPort s.params s.host s.params.pDacCmd), if_neg ha, fun a h => hostByte_of_answer h⟩⟩, by decide⟩

/-- Settles O33: as for the read; the write while Active runs a decode pass, and the counted one changes of the host's side an index register
at most. -/
theorem dacCommandWrite : Obligations.DacCommandWrite := by
  intro s v
  exact ⟨fun hl => decodeKey_of_named (cls := .dacCmd) hl rfl true, fun ha => exec_dacCmdW_of_active ha v,
    fun ha => ⟨standInPortWrite s.params s.host s.params.pDacCmd v, if_neg ha, standInPortWrite_memories ..⟩⟩

/-- Settles O34: each reset port has its own class, and its accesses do the same in every state of the detector. -/
theorem dacResetPorts : Obligations.DacResetPorts := by
  intro s r v p
  have hp : p = dacResetPort s.params r := by cases r <;> rfl
  rw [hp]
  exact ⟨fun hl => decodeKey_of_named (cls := .dacRst r) hl rfl false, fun hl => decodeKey_of_named (cls := .dacRst r) hl rfl true,
    ⟨s.hostByte (standInPort s.params s.host (dacResetPort s.params r)), rfl, fun a h => hostByte_of_answer h⟩,
    ⟨standInPortWrite s.params s.host (dacResetPort s.params r) v, rfl, standInPortWrite_memories ..⟩⟩

end Sys2Proof.Machine
end

section
/-! The framebuffer window (46_mem_translator.md R200 to R204): the banked offset as arithmetic, and what the two accesses do. -/

namespace Sys2Proof.Machine

variable {P : Params} {s t : State} {o : Offset} {v : Byte}

/-! ### The banked offset -/

theorem windowOffset_eq (newMode : Bool) (o : Offset) : windowOffset newMode o = if newMode then o.toNat % 65536 else o.toNat := by
  cases newMode with
  | false => rfl
  | true => exact Nat.and_two_pow_sub_one_eq_mod o.toNat 16

theorem effectiveOffset_eq (P : Params) (newMode : Bool) (bank : BitVec 5) (o : Offset) :
    effectiveOffset P newMode bank o =
      ((if newMode then o.toNat % 65536 else o.toNat) + bank.toNat * 65536) % P.vramSize := by
  rw [effectiveOffset, windowOffset_eq]

/-- The two halves of the window differ in bit 16 alone, which new mode drops (R201). -/
theorem windowOffset_newMode_xor (o : Offset) : windowOffset true (o ^^^ 0x10000) = windowOffset true o := by
  rw [windowOffset_eq, windowOffset_eq, if_pos rfl, if_pos rfl, BitVec.toNat_xor]
  have hxor := Nat.xor_mod_two_pow (a := o.toNat) (b := 65536) (n := 16)
  rw [show 65536 % 2 ^ 16 = 0 from rfl, Nat.xor_zero] at hxor
  exact hxor

/-- Settles O38: a remainder is below its divisor, the window offset has at most 17 bits and the bank five, and new mode drops the bit in which
the halves differ. -/
theorem bankedOffsetArithmetic : Obligations.BankedOffsetArithmetic := by
  intro P newMode bank o hpos
  have ho := o.isLt
  have hb := bank.isLt
  refine ⟨effectiveOffset_lt hpos .., ?_, ?_, ?_⟩
  · rw [windowOffset_eq]
    split <;> omega
  · rw [windowOffset_eq]
    split <;> omega
  · rw [effectiveOffset, effectiveOffset, windowOffset_newMode_xor]

/-! ### The two accesses -/

/-- A banked read answers the byte of video memory under the read bank (R201). -/
theorem exec_fbR_of_banked (h : banked s.st = true) (o : Offset) :
    exec (.fbR o) s = .next { s with
      result := some (s.host.vram.read (effectiveOffset s.params s.st.newMode s.st.bankR o)) } :=
  if_pos h

/-- A read that is not banked is the host's (R200). -/
theorem exec_fbR_of_not_banked (h : banked s.st = false) (o : Offset) :
    exec (.fbR o) s = .next { s with
      calls := s.calls ++ [.memRead o], result := some (s.hostByte (s.host.genMem.read o.toNat)) } :=
  if_neg (Bool.eq_false_iff.1 h)

/-- A banked write stores the byte in video memory under the write bank (R202). -/
theorem exec_fbW_of_banked (h : banked s.st = true) (o : Offset) (v : Byte) :
    exec (.fbW o v) s = .next { s with
      host := { s.host with vram := s.host.vram.write (effectiveOffset s.params s.st.newMode s.st.bankW o) v }
      result := none } :=
  if_pos h

/-- A write that is not banked is the host's (R200). -/
theorem exec_fbW_of_not_banked (h : banked s.st = false) (o : Offset) (v : Byte) :
    exec (.fbW o v) s = .next { s with
      host := { s.host with genMem := s.host.genMem.write o.toNat v }
      calls := s.calls ++ [.memWrite o v]
      result := none } :=
  if_neg (Bool.eq_false_iff.1 h)

/-- Settles O36: the depth flags choose between video memory at the banked offset and the host. -/
theorem framebufferRead : Obligations.FramebufferRead := by
  intro s o on o2
  refine ⟨fun _ => ?key, fun hon => ?_, fun hoff => ⟨_, exec_fbR_of_not_banked hoff o, fun a h => hostByte_of_answer h⟩⟩
  case key => simp [decodeKey]
  rw [exec_fbR_of_banked hon, effectiveOffset_eq]

/-- Settles O37: the depth flags choose the store the byte goes to, and a write touches one byte of it. -/
theorem framebufferWrite : Obligations.FramebufferWrite := by
  intro s o v on o2
  refine ⟨fun _ => ?key, effectiveOffset_eq .., fun hon => ⟨_, exec_fbW_of_banked hon o v, wroteByte_write ..⟩,
    fun hoff => ⟨_, exec_fbW_of_not_banked hoff o v, wroteByte_write ..⟩⟩
  simp [decodeKey]

/-- Settles O39: the write leaves the chip state, so that the read after it goes to the same store, at the same address. -/
theorem framebufferReadAfterWrite : Obligations.FramebufferReadAfterWrite := by
  intro s o o' v hs hbanked hhost
  obtain ⟨-, -, -, hgen, hvram, -⟩ := hs
  cases hb : banked s.st with
  | true =>
    refine ⟨_, _, exec_fbW_of_banked hb o v, exec_fbR_of_banked ?_ o', congrArg some ?_⟩
    · exact hb
    show Memory.read _ (effectiveOffset s.params s.st.newMode s.st.bankR o') = v
    rw [hbanked hb]
    exact Memory.read_write_same hvram _ v
  | false =>
    obtain ⟨hanswer, rfl⟩ := hhost hb
    refine ⟨_, _, exec_fbW_of_not_banked hb o' v, exec_fbR_of_not_banked ?_ o', congrArg some ?_⟩
    · exact hb
    exact (hostByte_of_none hanswer).trans (Memory.read_write_same hgen _ v)

end Sys2Proof.Machine
end
